-- ==== Sys2Proof/Word.lean ====
section
/-! DEFINITION. The widths the spec fixes (00_scope.md R8, R10): nibble, byte, descriptor, and the 6-byte sequence. -/

namespace Sys2Proof

/-- A `u4` of the spec (R10): a hex digit, a raw button or direction nibble, an enable mask. -/
abbrev Nibble := BitVec 4

/-- A `u8` of the spec (R10). -/
abbrev Byte := BitVec 8

/-- A 32-bit LED descriptor, or the argument lane of any other request (R8, R64). -/
abbrev Descriptor := BitVec 32

/-- Exactly six bytes, index 0 first (R8, R24): what `LEDC` holds and what an LED command is.
`b0` is `LEDC[0]`, ..., `b5` is `LEDC[5]`; in an LED command (R66) they are LED_SET, the mask, seg0, seg1, seg2, seg3. -/
structure LedBytes where
  b0 : Byte
  b1 : Byte
  b2 : Byte
  b3 : Byte
  b4 : Byte
  b5 : Byte
  deriving DecidableEq, Repr, Inhabited

/-- The byte sequence in index order, index 0 first (R10, R44). -/
def LedBytes.toList (l : LedBytes) : List Byte := [l.b0, l.b1, l.b2, l.b3, l.b4, l.b5]

end Sys2Proof
end

