-- ==== Sys2Proof/Config.lean ====
section
/-! DEFINITION. The implementation parameters of 00_scope.md R6, the premise R7 puts on them, the spec's test
configuration TC1 (92_eei_decisions.md D28), and the model's free values (constants with no body). -/

namespace Sys2Proof

/-- `P_MASK_MODE` (R6, R103, D8): how the enable-mask byte of an LED command is formed. -/
inductive MaskMode where
  | fromDescriptor
  | allFour
  deriving DecidableEq, Repr, Inhabited

/-- The six request kinds of R69 (INITIALIZE is spelled `init`, the longer word being one of Lean's own). -/
inductive ReqKind where
  | init
  | getButtons
  | setLed
  | ledAck
  | ledRequest
  | readLed
  deriving DecidableEq, Repr, Inhabited

/-- Every request kind, in the order of R69's table. -/
def ReqKind.all : List ReqKind := [.init, .getButtons, .setLed, .ledAck, .ledRequest, .readLed]

/-- `P_REQ_CODE` (R6, R69, D18) as plain data: the code of each kind.  The spec gives codes no width, so a code is a
natural number (DESIGN CHOICE, log entry 8; safe). -/
structure ReqCodes where
  init       : Nat
  getButtons : Nat
  setLed     : Nat
  ledAck     : Nat
  ledRequest : Nat
  readLed    : Nat
  deriving DecidableEq, Repr, Inhabited

/-- The code of a kind: `P_REQ_CODE(kind)`. -/
def ReqCodes.code (r : ReqCodes) : ReqKind → Nat
  | .init => r.init
  | .getButtons => r.getButtons
  | .setLed => r.setLed
  | .ledAck => r.ledAck
  | .ledRequest => r.ledRequest
  | .readLed => r.readLed

/-- The two agents that drive the block (R5). -/
inductive Agent where
  | rx
  | req
  deriving DecidableEq, Repr, Inhabited

/-- The parameters of R6.  None has a value in the source: a statement about the machine quantifies over all of them. -/
structure Config where
  /-- `P_OP_RESET` (D1) -/
  opReset : Byte
  /-- `P_OP_ACK` (D1) -/
  opAck : Byte
  /-- `P_OP_BIOC_EVENT` (D1) -/
  opBiocEvent : Byte
  /-- `P_CMD_BIOC_ON` (D2) -/
  cmdBiocOn : Byte
  /-- `P_CMD_LED_USR` (D2) -/
  cmdLedUsr : Byte
  /-- `P_CMD_LED_SET`, the source's LED_SET and SET_OPCODE (D2, 90_conflicts.md C4) -/
  cmdLedSet : Byte
  /-- `P_SEG_TABLE`, 16 entries (D3) -/
  segTable : Vector Byte 16
  /-- `P_MASK_MODE` (D8) -/
  maskMode : MaskMode
  /-- `P_RESET_FROM_ANY_STATE` (D9) -/
  resetFromAnyState : Bool
  /-- `P_BTN_INIT` (D10) -/
  btnInit : Byte
  /-- `P_LEDC_INIT` (D11) -/
  ledcInit : LedBytes
  /-- `P_REQ_CODE` (D18) -/
  reqCode : ReqCodes
  deriving DecidableEq, Repr, Inhabited

/-- R7: the three inbound opcodes are pairwise distinct. -/
def Config.opcodesDistinct (c : Config) : Bool :=
  decide (c.opReset ≠ c.opAck ∧ c.opReset ≠ c.opBiocEvent ∧ c.opAck ≠ c.opBiocEvent)

/-- R6: `P_REQ_CODE` is injective. -/
def Config.reqCodesInjective (c : Config) : Bool :=
  decide ((ReqKind.all.map c.reqCode.code).Nodup)

/-- A configuration the block may have: R7's premise, and the injectivity R6 gives `P_REQ_CODE` by its type (DEDUCED,
log entry 11; safe).  The outbound bytes are not constrained (R7). -/
def Config.wf (c : Config) : Bool := c.opcodesDistinct && c.reqCodesInjective

/-- The premise `SEG_DP_CLEAR` of 92_eei_decisions.md D4: bit 4 is clear in every table entry.  No definition of the
machine uses it. -/
def Config.segDpClear (c : Config) : Prop := ∀ n : Nibble, (c.segTable[n.toNat]'n.isLt).getLsbD 4 = false

/-- TC1, the spec's own TEST configuration (D28).  Its opcode and table values say nothing of the hardware
(93_implementation_defined.md G2, G3); TC1 has no request codes, and 0 to 5 are the model's (DESIGN CHOICE, log
entry 3).  Only `decodeTableWord`, `withFetchWord` and the tests use it. -/
def Config.tc1 : Config where
  opReset := 0x46
  opAck := 0x40
  opBiocEvent := 0x41
  cmdBiocOn := 0x43
  cmdLedUsr := 0x48
  cmdLedSet := 0x46
  segTable := #v[0xE7, 0x06, 0xCB, 0x8F, 0x2E, 0xAD, 0xED, 0x86, 0xEF, 0xAE, 0xEE, 0x6D, 0xE1, 0x4F, 0xE9, 0xE8]
  maskMode := .fromDescriptor
  resetFromAnyState := false
  btnInit := 0x00
  ledcInit := ⟨0, 0, 0, 0, 0, 0⟩
  reqCode := ⟨0, 1, 2, 3, 4, 5⟩

/-- FREE VALUE: some configuration, no body, so nothing can be proved of it (log entry 2; safe). -/
opaque Config.freeChip : Config

/-- The parameters of the chip at hand: any well-formed configuration (R7), and nothing more is known of them (log entry 2;
safe).  TC1 stands in the second branch only because a value must stand there: a chip's configuration is `freeChip`, which is
then well-formed.  `State.reset` is built from it; statements are about every configuration. -/
def Config.chip : Config := if Config.freeChip.wf then Config.freeChip else Config.tc1

/-- FREE VALUE: which agent goes next when the schedule of the state is used up (R51: every order is possible;
93_implementation_defined.md U13), by the number of operations taken so far (log entry 5; safe). -/
opaque Config.freeTurn : Nat → Agent

end Sys2Proof
end

