-- ==== Sys2Proof/Syntax.lean ====
section
/-! DEFINITION. The input words of the two input ports (20_memory.md R40, R41, R46) and the ONE inductive of operations:
one constructor per row of opcode_table.json (30_encoding.md R72, R67). -/

namespace Sys2Proof

/-- An inbound packet, 3 bytes in the order they are received (R60). -/
structure RawPacket where
  opcode : Byte
  data1  : Byte
  data2  : Byte
  deriving DecidableEq, Repr, Inhabited

/-- A request: a code and the 32-bit argument lane (R46, R69).  Only SET_LED reads the lane; every other kind ignores it
(DESIGN CHOICE, log entry 8; safe). -/
structure RawRequest where
  code : Nat
  arg  : Descriptor
  deriving DecidableEq, Repr, Inhabited

/-- What one event delivers, on the port it arrives at (R40). -/
inductive PortWord where
  | packet (p : RawPacket)
  | request (r : RawRequest)
  deriving DecidableEq, Repr, Inhabited

/-- The operations, one constructor per row of opcode_table.json.  Operands that the spec says are ignored are kept, so
that no form of a word is lost.  The five TX rows are outputs: no input word decodes to them (R67, R72; log entry 9). -/
inductive Instr where
  /-- RX.RESET: both data bytes are ignored (R63) -/
  | rxReset (d1 d2 : Byte)
  /-- RX.ACK: both data bytes are ignored (R63) -/
  | rxAck (d1 d2 : Byte)
  /-- RX.BIOC_EVENT: the low nibbles are the operands, the high nibbles are ignored (R62) -/
  | rxBiocEvent (d1 d2 : Byte)
  /-- RX.OTHER: any opcode but the three; everything is ignored (R63, R163) -/
  | rxOther (op d1 d2 : Byte)
  /-- REQ.INITIALIZE (R180) -/
  | reqInitialize (arg : Descriptor)
  /-- REQ.GET_BUTTONS (R181); whether its destination can be written is the environment's answer -/
  | reqGetButtons (arg : Descriptor)
  /-- REQ.SET_LED (R182) -/
  | reqSetLed (desc : Descriptor)
  /-- REQ.LED_ACK: any argument is ignored (R183) -/
  | reqLedAck (arg : Descriptor)
  /-- REQ.LED_REQUEST: any argument is ignored (R184) -/
  | reqLedRequest (arg : Descriptor)
  /-- REQ.READ_LED: any argument is ignored (R185) -/
  | reqReadLed (arg : Descriptor)
  /-- REQ.UNSUPPORTED: a code outside the image of `P_REQ_CODE` (R186) -/
  | reqUnsupported (code : Nat) (arg : Descriptor)
  /-- TX.ENABLE_EVENTS: output `[P_CMD_BIOC_ON]` (R67) -/
  | txEnableEvents
  /-- TX.LED_USER_MODE: output `[P_CMD_LED_USR]` (R67) -/
  | txLedUserMode
  /-- TX.LED_RESTORE: output `LEDC[0..5]` (R67) -/
  | txLedRestore
  /-- TX.LED_SET: output of the command of a descriptor (R66, R67) -/
  | txLedSet (desc : Descriptor)
  /-- TX.INIT: output `[P_CMD_BIOC_ON, P_CMD_LED_USR]` (R67) -/
  | txInit
  deriving DecidableEq, Repr

/-- The row is an RX row: an operation of the RX agent (R5, R72). -/
def Instr.isPacket : Instr → Bool
  | .rxReset _ _ | .rxAck _ _ | .rxBiocEvent _ _ | .rxOther _ _ _ => true
  | .reqInitialize _ | .reqGetButtons _ | .reqSetLed _ | .reqLedAck _ | .reqLedRequest _ | .reqReadLed _ => false
  | .reqUnsupported _ _ => false
  | .txEnableEvents | .txLedUserMode | .txLedRestore | .txLedSet _ | .txInit => false

/-- The row is a REQ row: an operation of the REQ agent (R5, R72). -/
def Instr.isRequest : Instr → Bool
  | .rxReset _ _ | .rxAck _ _ | .rxBiocEvent _ _ | .rxOther _ _ _ => false
  | .reqInitialize _ | .reqGetButtons _ | .reqSetLed _ | .reqLedAck _ | .reqLedRequest _ | .reqReadLed _ => true
  | .reqUnsupported _ _ => true
  | .txEnableEvents | .txLedUserMode | .txLedRestore | .txLedSet _ | .txInit => false

/-- The row is an input row; the others are output rows (TX), "listed ... for completeness" (R72). -/
def Instr.isInput (i : Instr) : Bool := i.isPacket || i.isRequest

end Sys2Proof
end

