-- ==== Sys2Proof/WellFormed.lean ====
section
/-! DEFINITION. When a term of `Instr` is one of the block's operations under a configuration: the two rows selected by
exclusion (RX.OTHER, REQ.UNSUPPORTED) must really be excluded (30_encoding.md R61, R69, R72). -/

namespace Sys2Proof

/-- The opcode is none of the three known ones (R61, class OTHER). -/
def Config.isOtherOpcode (c : Config) (op : Byte) : Bool :=
  decide (op ≠ c.opReset ∧ op ≠ c.opAck ∧ op ≠ c.opBiocEvent)

/-- The code is not in the image of `P_REQ_CODE` (R69, R186). -/
def Config.isUnsupportedCode (c : Config) (code : Nat) : Bool :=
  decide (code ∉ ReqKind.all.map c.reqCode.code)

/-- Well-formedness of an operation under a configuration. -/
def Instr.wf (c : Config) : Instr → Bool
  | .rxReset _ _ => true
  | .rxAck _ _ => true
  | .rxBiocEvent _ _ => true
  | .rxOther op _ _ => c.isOtherOpcode op
  | .reqInitialize _ => true
  | .reqGetButtons _ => true
  | .reqSetLed _ => true
  | .reqLedAck _ => true
  | .reqLedRequest _ => true
  | .reqReadLed _ => true
  | .reqUnsupported code _ => c.isUnsupportedCode code
  | .txEnableEvents => true
  | .txLedUserMode => true
  | .txLedRestore => true
  | .txLedSet _ => true
  | .txInit => true

end Sys2Proof
end

