-- ==== Sys2Proof/Decode.lean ====
section
/-! DEFINITION. From input words to operations (30_encoding.md R61, R69, R72), the encoder back, the byte-level form of
a packet (20_memory.md R41, R42), and the host's numbered words. -/

namespace Sys2Proof

/-- R61: the class of a packet is decided by the whole opcode byte, by equality only. -/
def decodePacket (c : Config) (p : RawPacket) : Instr :=
  if p.opcode = c.opReset then .rxReset p.data1 p.data2
  else if p.opcode = c.opAck then .rxAck p.data1 p.data2
  else if p.opcode = c.opBiocEvent then .rxBiocEvent p.data1 p.data2
  else .rxOther p.opcode p.data1 p.data2

/-- R69: the kind of a request is decided by its whole code, by equality only; any other code is unsupported. -/
def decodeRequest (c : Config) (r : RawRequest) : Instr :=
  if r.code = c.reqCode.init then .reqInitialize r.arg
  else if r.code = c.reqCode.getButtons then .reqGetButtons r.arg
  else if r.code = c.reqCode.setLed then .reqSetLed r.arg
  else if r.code = c.reqCode.ledAck then .reqLedAck r.arg
  else if r.code = c.reqCode.ledRequest then .reqLedRequest r.arg
  else if r.code = c.reqCode.readLed then .reqReadLed r.arg
  else .reqUnsupported r.code r.arg

/-- The operation an input word selects.  Total: "every input word has a meaning; none traps" (R71). -/
def decode (c : Config) : PortWord → Instr
  | .packet p => decodePacket c p
  | .request r => decodeRequest c r

/-- The input word of an operation, from the same table (R72); none for a TX row, which is an output. -/
def encode (c : Config) : Instr → Option PortWord
  | .rxReset d1 d2 => some (.packet ⟨c.opReset, d1, d2⟩)
  | .rxAck d1 d2 => some (.packet ⟨c.opAck, d1, d2⟩)
  | .rxBiocEvent d1 d2 => some (.packet ⟨c.opBiocEvent, d1, d2⟩)
  | .rxOther op d1 d2 => some (.packet ⟨op, d1, d2⟩)
  | .reqInitialize arg => some (.request ⟨c.reqCode.init, arg⟩)
  | .reqGetButtons arg => some (.request ⟨c.reqCode.getButtons, arg⟩)
  | .reqSetLed desc => some (.request ⟨c.reqCode.setLed, desc⟩)
  | .reqLedAck arg => some (.request ⟨c.reqCode.ledAck, arg⟩)
  | .reqLedRequest arg => some (.request ⟨c.reqCode.ledRequest, arg⟩)
  | .reqReadLed arg => some (.request ⟨c.reqCode.readLed, arg⟩)
  | .reqUnsupported code arg => some (.request ⟨code, arg⟩)
  | .txEnableEvents => none
  | .txLedUserMode => none
  | .txLedRestore => none
  | .txLedSet _ => none
  | .txInit => none

/-- Why a sequence of bytes is not read as an operation. -/
inductive DecodeError where
  /-- RX carries whole packets of exactly 3 bytes (R41); framing is done before RX (R42).  That another length is rejected by
  this name is the model's (DESIGN CHOICE, log entry 14); safe. -/
  | notThreeBytes (length : Nat)
  /-- The configuration has two equal inbound opcodes, and is refused (R7, D30), or two equal request codes (DEDUCED, log entry
  11); that the byte decoder refuses it is the model's (DESIGN CHOICE, log entry 14); safe. -/
  | illFormedConfiguration
  deriving DecidableEq, Repr

/-- The decoder on bytes, as the serial line layer hands them over: byte 0 is the opcode (R60). -/
def decodeBytes (c : Config) (bs : List Byte) : Except DecodeError Instr :=
  if c.wf then
    match bs with
    | [op, d1, d2] => .ok (decode c (.packet ⟨op, d1, d2⟩))
    | _ => .error (.notThreeBytes bs.length)
  else .error .illFormedConfiguration

/-- The host's numbering of an input word (log entry 12): up to 24 bits are an RX packet, byte 0 in bits 7..0; a longer
word is a request, its code in bits 31..0 and its argument in bits 63..32. -/
def portWordOfBits (nbits w : Nat) : PortWord :=
  if nbits ≤ 24 then .packet ⟨BitVec.ofNat 8 w, BitVec.ofNat 8 (w / 2 ^ 8), BitVec.ofNat 8 (w / 2 ^ 16)⟩
  else .request ⟨w % 2 ^ 32, BitVec.ofNat 32 (w / 2 ^ 32)⟩

/-- What the decoder reads from a numbered word.  A number has a meaning only under numeric parameters, so the word is
read under the spec's test configuration TC1 (log entry 3). -/
def decodeTableWord (nbits w : Nat) : Option Instr := some (decode .tc1 (portWordOfBits nbits w))

end Sys2Proof
end

