-- ==== Sys2Proof/Machine/Operands.lean ====
section
/-! DEFINITION. The operand fields: the nibbles of a BIOC_EVENT packet (30_encoding.md R62) and the fields of an LED
descriptor (R64, with D6 for the order of the two masks and D7 for bits 31:28). -/

namespace Sys2Proof.Machine

/-- `buttons = data1[3:0]` (R62). -/
def buttonsNibble (d1 : Byte) : Nibble := d1.extractLsb' 0 4

/-- `dirs = data2[3:0]` (R62). -/
def dirsNibble (d2 : Byte) : Nibble := d2.extractLsb' 0 4

/-- `hex_i = desc[4i+3:4i]` (R64). -/
def hexDigit (desc : Descriptor) (i : Fin 4) : Nibble := desc.extractLsb' (4 * i.val) 4

/-- `en = desc[19:16]` (R64). -/
def enableMask (desc : Descriptor) : Nibble := desc.extractLsb' 16 4

/-- `en[i] = desc[16+i]` (R64). -/
def digitEnabled (desc : Descriptor) (i : Fin 4) : Bool := desc.getLsbD (16 + i.val)

/-- `dp[i] = desc[24+i]` (R64). -/
def digitPoint (desc : Descriptor) (i : Fin 4) : Bool := desc.getLsbD (24 + i.val)

end Sys2Proof.Machine
end

