-- ==== Sys2Proof/Machine/State.lean ====
section
/-! DEFINITION. The state as plain data: the three state elements (10_state.md R20), the observation (R31), the pending
events of the two agents with the environment's answers (20_memory.md R40 to R57), and the configuration. -/

namespace Sys2Proof.Machine

/-- `RST` (R26).  The 2-bit value 3 of R27 is not a value of this type, so no step exists in it (log entry 10). -/
inductive ResetState where
  | idle
  | awaitingUserModeAck
  | awaitingLedRestoreAck
  deriving DecidableEq, Repr, Inhabited

/-- The outcome of a submission, the environment's answer (R45). -/
inductive TxOutcome where
  | accepted
  | rejected
  deriving DecidableEq, Repr, Inhabited

/-- The five command forms of R67. -/
inductive TxForm where
  | enableEvents
  | ledUserMode
  | ledRestore
  | ledSet
  | init
  deriving DecidableEq, Repr, Inhabited

/-- One entry of TXLOG (R31): the bytes submitted and the outcome.  `form` names which form of R67 it is and `sent` is
what it put on the wire (R45); both are the model's bookkeeping, no part of R31's observation (log entry 7). -/
structure Submission where
  form    : TxForm
  bytes   : List Byte
  outcome : TxOutcome
  sent    : List Byte
  deriving DecidableEq, Repr

/-- The error taxonomy, exactly three (R200). -/
inductive ReqError where
  | transmitFailure
  | copyFailure
  | unsupportedRequest
  deriving DecidableEq, Repr

/-- The result of one request (R46, R70): OK, OK with the button word, or a failure. -/
inductive ReqResult where
  | ok
  | okValue (v : Byte)
  | fail (e : ReqError)
  deriving DecidableEq, Repr

/-- What the environment answers during one operation (R57): the outcome of its submission, how many bytes of a rejected
one reach the wire (R45: any prefix), and whether the `getButtons` destination can be written. -/
structure EnvAnswer where
  tx           : TxOutcome
  rejectedSent : Nat
  destWritable : Bool
  deriving DecidableEq, Repr, Inhabited

/-- A packet that has arrived or will arrive on RX, with the answers the environment gives to its operation (R73 writes
them on the event's line). -/
structure RxEvent where
  packet : RawPacket
  env    : EnvAnswer
  deriving DecidableEq, Repr, Inhabited

/-- A request on REQ, with the answers the environment gives to its operation. -/
structure ReqEvent where
  request : RawRequest
  env     : EnvAnswer
  deriving DecidableEq, Repr, Inhabited

/-- The whole machine. -/
structure State where
  /-- The parameters of R6: fixed for the life of the block (R21), held here so that every statement is about every
  configuration (log entry 1).  No operation writes it. -/
  cfg : Config
  /-- `BTN`, the ButtonStateStore (R22, R23) -/
  btn : Byte
  /-- `LEDC`, the LedStateCache (R24, R25) -/
  ledc : LedBytes
  /-- `RST`, the ResetState (R26) -/
  rst : ResetState
  /-- `TXLOG` (R31, R52): every submission in step order, oldest first -/
  txLog : List Submission
  /-- The results of the requests served, oldest first (R31) -/
  results : List ReqResult
  /-- Packets not yet taken, oldest first (R42) -/
  rxPending : List RxEvent
  /-- Requests not yet taken, oldest first (R51) -/
  reqPending : List ReqEvent
  /-- Which agent goes at each coming operation (R51); past its end the order is a free value (log entry 5) -/
  sched : List Agent
  /-- How many operations have been taken: the index of the free values (log entry 5) -/
  turn : Nat
  /-- The environment's answers to the operation under way (R21, R57; log entry 4) -/
  env : EnvAnswer
  deriving DecidableEq, Repr

/-- Why the machine would stop with a fault.  There is no reason: "every input word has a meaning; none traps" (R71),
"there is no trap entry" (R209), and R27's stuck value of `RST` is not a value of `ResetState`.  No one raises a fault;
safe. -/
inductive Fault where
  deriving DecidableEq, Repr

/-- Why the model gives a step no meaning. -/
inductive Refusal where
  /-- Raised by an arm of `exec` whose operation has no meaning yet (none here); safe. -/
  | notModelled (mnemonic : String)
  /-- Raised by `step` when the configuration breaks R7's premise or R6's injectivity: "A model must refuse a
  configuration that breaks this premise rather than give it a meaning" (R7, D30, U15); safe. -/
  | illFormedConfiguration
  deriving DecidableEq, Repr

/-- Block reset under a configuration (R29, R220): `RST` Idle, `BTN` and `LEDC` at their parameters; a run starts here
with nothing submitted, answered or pending (R31).  The model's own fields `sched`, `turn`, `env` start empty, at 0, and at
an answer that every operation overwrites (DESIGN CHOICE, log entries 4 and 5). -/
def State.resetOf (c : Config) : State where
  cfg := c
  btn := c.btnInit
  ledc := c.ledcInit
  rst := .idle
  txLog := []
  results := []
  rxPending := []
  reqPending := []
  sched := []
  turn := 0
  env := ⟨.accepted, 0, true⟩

/-- The machine right after reset, for the chip at hand (log entry 2). -/
def State.reset : State := State.resetOf Config.chip

end Sys2Proof.Machine
end

