-- ==== Sys2Proof/Machine/Ops.lean ====
section
/-! DEFINITION. The named operations over the state: whole-element writes (20_memory.md R49), `Transmit` and `CopyOut`
(00_scope.md R12), ending a request (60_exceptions.md R200, R209), and taking the next event (R42, R50, R51).
The block takes no exceptions (R209): an error ends its request with a result, which is `State.finish`. -/

namespace Sys2Proof.Machine

/-! ### State elements -/

/-- `BTN <- v`, the whole byte (R23, R49). -/
def State.writeBtn (v : Byte) (s : State) : State := { s with btn := v }

/-- `LEDC <- cmd`, all six bytes at once (R24, R49). -/
def State.writeLedc (cmd : LedBytes) (s : State) : State := { s with ledc := cmd }

/-- `RST <- r` (R28, R49). -/
def State.writeRst (r : ResetState) (s : State) : State := { s with rst := r }

/-- The 2-bit encoding of `RST` (R26, D12). -/
def ResetState.toBits : ResetState → BitVec 2
  | .idle => 0
  | .awaitingUserModeAck => 1
  | .awaitingLedRestoreAck => 2

/-- Reading the 2-bit encoding; 3 is not a ResetState (R27). -/
def ResetState.ofBits (b : BitVec 2) : Option ResetState :=
  if b = 0 then some .idle
  else if b = 1 then some .awaitingUserModeAck
  else if b = 2 then some .awaitingLedRestoreAck
  else none

/-! ### TX -/

/-- What a submission puts on the wire (R45): all of it when accepted, some first part of it when rejected. -/
def EnvAnswer.sent (a : EnvAnswer) (bs : List Byte) : List Byte :=
  match a.tx with
  | .accepted => bs
  | .rejected => bs.take a.rejectedSent

/-- The TXLOG entry of submitting `bs` as a command of form `f` under the environment's answers (R31, R45). -/
def EnvAnswer.submission (a : EnvAnswer) (f : TxForm) (bs : List Byte) : Submission := ⟨f, bs, a.tx, a.sent bs⟩

/-- `Transmit(bs)` (R12, R43, R45, R52): the submission joins TXLOG inside the step that makes it.  Its outcome is
`s.env.tx`. -/
def State.transmit (f : TxForm) (bs : List Byte) (s : State) : State :=
  { s with txLog := s.txLog ++ [s.env.submission f bs] }

/-- The bytes on the wire so far, in order (R44, R45). -/
def State.wire (s : State) : List Byte := s.txLog.flatMap Submission.sent

/-! ### Results -/

/-- The result code of R70, R200. -/
def ReqResult.code : ReqResult → Nat
  | .ok => 0
  | .okValue _ => 0
  | .fail .transmitFailure => 1
  | .fail .copyFailure => 2
  | .fail .unsupportedRequest => 3

/-- End the request under way with its one result (R46, R200). -/
def State.finish (r : ReqResult) (s : State) : State := { s with results := s.results ++ [r] }

/-- The result of a request that ends with a submission (R201). -/
def TxOutcome.result : TxOutcome → ReqResult
  | .accepted => .ok
  | .rejected => .fail .transmitFailure

/-- `CopyOut(v)` and the result it leads to (R181, R202). -/
def EnvAnswer.copyResult (a : EnvAnswer) (v : Byte) : ReqResult :=
  if a.destWritable then .okValue v else .fail .copyFailure

/-! ### Events -/

/-- `PacketIn`: a packet arrives and waits behind those that came before (R12, R42). -/
def State.packetIn (e : RxEvent) (s : State) : State := { s with rxPending := s.rxPending ++ [e] }

/-- A request arrives and waits behind those that came before (R46, R51). -/
def State.requestIn (e : ReqEvent) (s : State) : State := { s with reqPending := s.reqPending ++ [e] }

/-- The agent whose turn it is (R51): the schedule's next entry, a free value past its end. -/
def State.agentNext (s : State) : Agent :=
  match s.sched with
  | a :: _ => a
  | [] => Config.freeTurn s.turn

/-- The RX agent takes its oldest packet. -/
def State.takePacket (e : RxEvent) (rest : List RxEvent) (s : State) : State :=
  { s with rxPending := rest, env := e.env, sched := s.sched.tail, turn := s.turn + 1 }

/-- The REQ agent takes its oldest request. -/
def State.takeRequest (e : ReqEvent) (rest : List ReqEvent) (s : State) : State :=
  { s with reqPending := rest, env := e.env, sched := s.sched.tail, turn := s.turn + 1 }

/-- The event of the coming operation and the state in which it runs (R50, R51): with events of both agents pending, the
oldest of the agent whose turn it is; with events of one, that one's oldest; none where nothing is pending. -/
def State.takeEvent (s : State) : Option (PortWord × State) :=
  match s.rxPending, s.reqPending with
  | [], [] => none
  | e :: rest, [] => some (.packet e.packet, s.takePacket e rest)
  | [], q :: rest => some (.request q.request, s.takeRequest q rest)
  | e :: rest, q :: rest' =>
    match s.agentNext with
    | .rx => some (.packet e.packet, s.takePacket e rest)
    | .req => some (.request q.request, s.takeRequest q rest')

end Sys2Proof.Machine
end

