-- ==== Sys2Proof/Machine/ButtonDecoder.lean ====
section
/-! DEFINITION. The ButtonDecoder (42_button_decoder.md): inversion, wiring correction, and the store. -/

namespace Sys2Proof.Machine

/-- INVERT (R120): active-low to active-high, within 4 bits. -/
def invertNibble (n : Nibble) : Nibble := ~~~n

/-- SWAP12 (R121): where bits 1 and 2 differ, exchange them. -/
def swap12 (dn : Nibble) : Nibble := if dn.getLsbD 1 != dn.getLsbD 2 then dn ^^^ 0b0110 else dn

/-- The value of DECODE (R122): buttons in the low nibble, corrected directions in the high nibble. -/
def buttonWord (buttons dirs : Nibble) : Byte :=
  (invertNibble buttons).setWidth 8 ||| ((swap12 (invertNibble dirs)).setWidth 8 <<< 4)

/-- DECODE with its store (R122). -/
def decodeButtons (buttons dirs : Nibble) (s : State) : State := s.writeBtn (buttonWord buttons dirs)

end Sys2Proof.Machine
end

