-- ==== Sys2Proof/Machine/LedEncoder.lean ====
section
/-! DEFINITION. The LedEncoder (41_led_encoder.md): the four lanes, the mask byte, ENCODE, and the cache write. -/

namespace Sys2Proof.Machine

/-- SEGLOOKUP (R100): `P_SEG_TABLE[hex_i]`. -/
def segLookup (c : Config) (hex : Nibble) : Byte := c.segTable[hex.toNat]'hex.isLt

/-- ENABLEFORCE (R101): a disabled digit's byte is 0. -/
def enableForce (en : Bool) (pat : Byte) : Byte := if en then pat else 0x00

/-- DPOVERLAY (R102): the point adds 0x10 modulo 256, also to the 0 of a disabled digit (D4). -/
def dpOverlay (dp : Bool) (b : Byte) : Byte := if dp then b + 0x10 else b

/-- Lane i of the encoder: `seg_i` (R100 to R102). -/
def segByte (c : Config) (desc : Descriptor) (i : Fin 4) : Byte :=
  dpOverlay (digitPoint desc i) (enableForce (digitEnabled desc i) (segLookup c (hexDigit desc i)))

/-- MASKBYTE (R103): the descriptor's field, or all four digits in mode AllFour (D8). -/
def maskByte (c : Config) (desc : Descriptor) : Byte :=
  match c.maskMode with
  | .fromDescriptor => (enableMask desc).setWidth 8
  | .allFour => 0x0F

/-- ENCODE (R104): any descriptor, no error conditions. -/
def encodeLed (c : Config) (desc : Descriptor) : LedBytes :=
  ⟨c.cmdLedSet, maskByte c desc, segByte c desc 0, segByte c desc 1, segByte c desc 2, segByte c desc 3⟩

/-- CACHEWRITE (R107): the encoder's side effect, before the transmit of the same step. -/
def cacheWrite (desc : Descriptor) (s : State) : State := s.writeLedc (encodeLed s.cfg desc)

end Sys2Proof.Machine
end

