-- ==== Sys2Proof/Machine/TxCommands.lean ====
section
/-! DEFINITION. The five outbound command forms (30_encoding.md R66 to R68) as submissions, and the meanings of the five TX
rows: one submission each, its outcome the environment's answer (20_memory.md R45). -/

namespace Sys2Proof.Machine

/-- Submit enable-events (R67). -/
def sendEnableEvents (s : State) : State := s.transmit .enableEvents [s.cfg.cmdBiocOn]

/-- Submit led-user-mode (R67). -/
def sendLedUserMode (s : State) : State := s.transmit .ledUserMode [s.cfg.cmdLedUsr]

/-- Submit led-restore: `LEDC` verbatim, index 0 first (R44, R67). -/
def sendLedRestore (s : State) : State := s.transmit .ledRestore s.ledc.toList

/-- Submit led-set: an LED command (R66, R67). -/
def sendLedSet (cmd : LedBytes) (s : State) : State := s.transmit .ledSet cmd.toList

/-- Submit init: two bytes, one submission (R67, R180). -/
def sendInit (s : State) : State := s.transmit .init [s.cfg.cmdBiocOn, s.cfg.cmdLedUsr]

/-- The bytes of an output row, from R67's table: under a configuration and the cache's present contents; none for an input
row. -/
def txBytes (c : Config) (ledc : LedBytes) : Instr → Option (List Byte)
  | .txEnableEvents => some [c.cmdBiocOn]
  | .txLedUserMode => some [c.cmdLedUsr]
  | .txLedRestore => some ledc.toList
  | .txLedSet desc => some (encodeLed c desc).toList
  | .txInit => some [c.cmdBiocOn, c.cmdLedUsr]
  | .rxReset _ _ | .rxAck _ _ | .rxBiocEvent _ _ | .rxOther _ _ _ => none
  | .reqInitialize _ | .reqGetButtons _ | .reqSetLed _ | .reqLedAck _ | .reqLedRequest _ | .reqReadLed _ => none
  | .reqUnsupported _ _ => none

/-- TX.ENABLE_EVENTS: "sent on RESET" (R67, R141). -/
def execTxEnableEvents (s : State) : Host.Outcome State Fault Refusal := .next (sendEnableEvents s)

/-- TX.LED_USER_MODE: "sent on first ACK after RESET" (R67, R142). -/
def execTxLedUserMode (s : State) : Host.Outcome State Fault Refusal := .next (sendLedUserMode s)

/-- TX.LED_RESTORE: "sent on second ACK after RESET" (R67, R143). -/
def execTxLedRestore (s : State) : Host.Outcome State Fault Refusal := .next (sendLedRestore s)

/-- TX.LED_SET: "sent on external display request" (R67, R182); the submission alone, without the cache write. -/
def execTxLedSet (desc : Descriptor) (s : State) : Host.Outcome State Fault Refusal :=
  .next (sendLedSet (encodeLed s.cfg desc) s)

/-- TX.INIT: "sent once at startup" (R67, R180). -/
def execTxInit (s : State) : Host.Outcome State Fault Refusal := .next (sendInit s)

end Sys2Proof.Machine
end

