-- ==== Sys2Proof/Machine/ResetHandshake.lean ====
section
/-! DEFINITION. The ResetHandshake (43_reset_handshake.md): the one transition function, run on every routed packet. -/

namespace Sys2Proof.Machine

/-- HS_STEP (R140).  `RST` is written whatever the submission's outcome (R146); every pair not named holds (R144). -/
def hsStep (op : Byte) (s : State) : State :=
  if s.rst = .idle ∧ op = s.cfg.opReset then sendEnableEvents (s.writeRst .awaitingUserModeAck)
  else if s.rst = .awaitingUserModeAck ∧ op = s.cfg.opAck then sendLedUserMode (s.writeRst .awaitingLedRestoreAck)
  else if s.rst = .awaitingLedRestoreAck ∧ op = s.cfg.opAck then sendLedRestore (s.writeRst .idle)
  else if s.cfg.resetFromAnyState = true ∧ s.rst ≠ .idle ∧ op = s.cfg.opReset then
    sendEnableEvents (s.writeRst .awaitingUserModeAck)
  else s

end Sys2Proof.Machine
end

