-- ==== Sys2Proof/Machine/PacketRouter.lean ====
section
/-! DEFINITION. The PacketRouter (44_packet_router.md): ROUTE, and the meanings of the four RX rows over it. -/

namespace Sys2Proof.Machine

/-- ROUTE (R160): every packet's opcode to the handshake first (R161), then a BIOC_EVENT's nibbles to the decoder (R162). -/
def route (op d1 d2 : Byte) (s : State) : State :=
  if op = s.cfg.opBiocEvent then decodeButtons (buttonsNibble d1) (dirsNibble d2) (hsStep op s) else hsStep op s

/-- RX.RESET (R141, R147, R164). -/
def execRxReset (d1 d2 : Byte) (s : State) : Host.Outcome State Fault Refusal := .next (route s.cfg.opReset d1 d2 s)

/-- RX.ACK (R142, R143, R164). -/
def execRxAck (d1 d2 : Byte) (s : State) : Host.Outcome State Fault Refusal := .next (route s.cfg.opAck d1 d2 s)

/-- RX.BIOC_EVENT (R162). -/
def execRxBiocEvent (d1 d2 : Byte) (s : State) : Host.Outcome State Fault Refusal :=
  .next (route s.cfg.opBiocEvent d1 d2 s)

/-- RX.OTHER (R163). -/
def execRxOther (op d1 d2 : Byte) (s : State) : Host.Outcome State Fault Refusal := .next (route op d1 d2 s)

end Sys2Proof.Machine
end

