-- ==== Sys2Proof/Machine/Requests.lean ====
section
/-! DEFINITION. The request surface (45_requests.md): one meaning per request row. -/

namespace Sys2Proof.Machine

/-- REQ.INITIALIZE (R180): one 2-byte submission, no state element written. -/
def execReqInitialize (_arg : Descriptor) (s : State) : Host.Outcome State Fault Refusal :=
  .next ((sendInit s).finish s.env.tx.result)

/-- REQ.GET_BUTTONS (R181): the button word to the caller, or CopyFailure; nothing consumed. -/
def execReqGetButtons (_arg : Descriptor) (s : State) : Host.Outcome State Fault Refusal :=
  .next (s.finish (s.env.copyResult s.btn))

/-- REQ.SET_LED (R182): encode, write the cache, then submit; the cache write stands whatever the outcome (R223). -/
def execReqSetLed (desc : Descriptor) (s : State) : Host.Outcome State Fault Refusal :=
  .next ((sendLedSet (encodeLed s.cfg desc) (cacheWrite desc s)).finish s.env.tx.result)

/-- REQ.LED_ACK (R183): always succeeds, no effect. -/
def execReqLedAck (_arg : Descriptor) (s : State) : Host.Outcome State Fault Refusal := .next (s.finish .ok)

/-- REQ.LED_REQUEST (R184): always succeeds, no effect. -/
def execReqLedRequest (_arg : Descriptor) (s : State) : Host.Outcome State Fault Refusal := .next (s.finish .ok)

/-- REQ.READ_LED (R185): always succeeds, no value, no effect (D20). -/
def execReqReadLed (_arg : Descriptor) (s : State) : Host.Outcome State Fault Refusal := .next (s.finish .ok)

/-- REQ.UNSUPPORTED (R186): the failure result, no effect. -/
def execReqUnsupported (_code : Nat) (_arg : Descriptor) (s : State) : Host.Outcome State Fault Refusal :=
  .next (s.finish (.fail .unsupportedRequest))

end Sys2Proof.Machine
end

