-- ==== Sys2Proof/Machine/Dispatch.lean ====
section
/-! DEFINITION. exec: one arm per row of opcode_table.json, each one call of its meaning. -/

namespace Sys2Proof.Machine

def exec (i : Instr) (s : State) : Host.Outcome State Fault Refusal :=
  match i with
  | .rxReset d1 d2 => Sys2Proof.Machine.execRxReset d1 d2 s
  | .rxAck d1 d2 => Sys2Proof.Machine.execRxAck d1 d2 s
  | .rxBiocEvent d1 d2 => Sys2Proof.Machine.execRxBiocEvent d1 d2 s
  | .rxOther op d1 d2 => Sys2Proof.Machine.execRxOther op d1 d2 s
  | .reqInitialize arg => Sys2Proof.Machine.execReqInitialize arg s
  | .reqGetButtons arg => Sys2Proof.Machine.execReqGetButtons arg s
  | .reqSetLed desc => Sys2Proof.Machine.execReqSetLed desc s
  | .reqLedAck arg => Sys2Proof.Machine.execReqLedAck arg s
  | .reqLedRequest arg => Sys2Proof.Machine.execReqLedRequest arg s
  | .reqReadLed arg => Sys2Proof.Machine.execReqReadLed arg s
  | .reqUnsupported code arg => Sys2Proof.Machine.execReqUnsupported code arg s
  | .txEnableEvents => Sys2Proof.Machine.execTxEnableEvents s
  | .txLedUserMode => Sys2Proof.Machine.execTxLedUserMode s
  | .txLedRestore => Sys2Proof.Machine.execTxLedRestore s
  | .txLedSet desc => Sys2Proof.Machine.execTxLedSet desc s
  | .txInit => Sys2Proof.Machine.execTxInit s

end Sys2Proof.Machine
end

