-- ==== Sys2Proof/Machine/Step.lean ====
section
/-! DEFINITION. One step: one atomic operation of one agent (20_memory.md R50), selected by the event that starts it
(10_state.md R30), and the host's way to place an input word. -/

namespace Sys2Proof.Machine

/-- One step.  A configuration that breaks R7 is refused; with nothing pending the block waits, unchanged (R220, R31; log
entry 6); otherwise the next event's operation runs, whole (R50). -/
def step (s : State) : Host.Outcome State Fault Refusal :=
  if s.cfg.wf then
    match s.takeEvent with
    | none => .next s
    | some (w, t) => exec (decode s.cfg w) t
  else .refused .illFormedConfiguration

/-- Place a numbered word so that the very next step runs it: as the oldest event of its port, that port's agent next in the
schedule, the answers of the environment as they stand in `s`, under the configuration TC1 that gives the number its meaning
(log entries 3 and 12).  This is how a program comes to run: events arrive from outside. -/
def State.withFetchWord (s : State) (nbits w : Nat) : State :=
  match portWordOfBits nbits w with
  | .packet p => { s with cfg := .tc1, rxPending := ⟨p, s.env⟩ :: s.rxPending, sched := .rx :: s.sched }
  | .request r => { s with cfg := .tc1, reqPending := ⟨r, s.env⟩ :: s.reqPending, sched := .req :: s.sched }

end Sys2Proof.Machine
end

