-- ==== Sys2Proof/Machine/Flags.lean ====
section
/-! DEFINITION. The pressed flags of `BTN` (10_state.md R22).  The block has no condition codes (R30). -/

namespace Sys2Proof.Machine

/-- The eight flags of the button word (R22; D5 for the low nibble). -/
inductive ButtonFlag where
  | start
  | a
  | b
  | c
  | up
  | down
  | left
  | right
  deriving DecidableEq, Repr

/-- The bit of `BTN` that holds a flag (R22). -/
def flagBit : ButtonFlag → Nat
  | .start => 0
  | .a => 1
  | .b => 2
  | .c => 3
  | .up => 4
  | .down => 5
  | .left => 6
  | .right => 7

/-- A flag of a button word; true is pressed (R22). -/
def pressed (btn : Byte) (f : ButtonFlag) : Bool := btn.getLsbD (flagBit f)

/-- The raw bit of a packet's data bytes that carries a flag, active-low (R123): the buttons from `data1`, the directions
from `data2`, Left and Down crossed. -/
def rawFlagBit (d1 d2 : Byte) : ButtonFlag → Bool
  | .start => d1.getLsbD 0
  | .a => d1.getLsbD 1
  | .b => d1.getLsbD 2
  | .c => d1.getLsbD 3
  | .up => d2.getLsbD 0
  | .left => d2.getLsbD 1
  | .down => d2.getLsbD 2
  | .right => d2.getLsbD 3

end Sys2Proof.Machine
end

