-- ==== Sys2Proof/Safety.lean ====
section
/-! DEFINITION. What a good state of a run is, in the terms the statements use: the cache and the handshake state are
determined by TXLOG (10_state.md R25, 43_reset_handshake.md R150), and TXLOG holds only the five command forms (30_encoding.md
R67) with a permitted wire effect (20_memory.md R45). -/

namespace Sys2Proof.Machine

/-- Running operations one after another with nothing between them (R50), stopping where one does not answer a next state. -/
def execAll : List Instr → State → Host.Outcome State Fault Refusal
  | [], s => .next s
  | i :: rest, s =>
    match exec i s with
    | .next t => execAll rest t
    | .fault r => .fault r
    | .refused r => .refused r

/-- An event that waits on one of the two input ports (20_memory.md R40). -/
inductive PendingEvent where
  | packet (e : RxEvent)
  | request (e : ReqEvent)
  deriving DecidableEq, Repr

/-- The packet of an event, where it is one. -/
def PendingEvent.asPacket : PendingEvent → Option RxEvent
  | .packet e => some e
  | .request _ => none

/-- The request of an event, where it is one. -/
def PendingEvent.asRequest : PendingEvent → Option ReqEvent
  | .packet _ => none
  | .request e => some e

/-- The one operation of an event: it is taken from the head of its queue and what its word decodes to is run (R50). -/
def PendingEvent.run (s : State) : PendingEvent → Host.Outcome State Fault Refusal
  | .packet e => exec (decode s.cfg (.packet e.packet)) (s.takePacket e s.rxPending.tail)
  | .request e => exec (decode s.cfg (.request e.request)) (s.takeRequest e s.reqPending.tail)

/-- The operations of events in one total order (R51), each run once, stopping where one does not answer a next state. -/
def runEvents : List PendingEvent → State → Host.Outcome State Fault Refusal
  | [], s => .next s
  | e :: rest, s =>
    match e.run s with
    | .next t => runEvents rest t
    | .fault r => .fault r
    | .refused r => .refused r

/-- The six bytes the cache holds after a log: those of its last led-set submission, accepted or not, and `P_LEDC_INIT`
where there is none (R24, R25). -/
def cacheAfter (c : Config) (log : List Submission) : List Byte :=
  log.foldl (fun cached sub => if sub.form = .ledSet then sub.bytes else cached) c.ledcInit.toList

/-- The handshake state a submission leaves (R140): each handshake form is sent by exactly one target state's transition. -/
def rstAfterSubmission (r : ResetState) (sub : Submission) : ResetState :=
  match sub.form with
  | .enableEvents => .awaitingUserModeAck
  | .ledUserMode => .awaitingLedRestoreAck
  | .ledRestore => .idle
  | .ledSet => r
  | .init => r

/-- The handshake state after a log, from Idle (R26, R150). -/
def rstAfter (log : List Submission) : ResetState := log.foldl rstAfterSubmission .idle

/-- The bytes a submission may have, by its form, when it is made after the log `before` (R67). -/
def FormBytes (c : Config) (before : List Submission) (sub : Submission) : Prop :=
  match sub.form with
  | .enableEvents => sub.bytes = [c.cmdBiocOn]
  | .ledUserMode => sub.bytes = [c.cmdLedUsr]
  | .ledRestore => sub.bytes = cacheAfter c before
  | .ledSet => ∃ desc, sub.bytes = (encodeLed c desc).toList
  | .init => sub.bytes = [c.cmdBiocOn, c.cmdLedUsr]

/-- What a submission may have put on the wire (R45). -/
def WireEffect (sub : Submission) : Prop :=
  match sub.outcome with
  | .accepted => sub.sent = sub.bytes
  | .rejected => sub.sent <+: sub.bytes

/-- Every submission of a log has the bytes of its form and a permitted wire effect. -/
def LogExplained (c : Config) (log : List Submission) : Prop :=
  ∀ before sub after, log = before ++ sub :: after → FormBytes c before sub ∧ WireEffect sub

/-- The invariant every step keeps. -/
structure Inv (s : State) : Prop where
  config : s.cfg.wf = true
  cache : s.ledc.toList = cacheAfter s.cfg s.txLog
  handshake : s.rst = rstAfter s.txLog
  log : LogExplained s.cfg s.txLog

end Sys2Proof.Machine
end

