-- ==== Sys2Proof/Certificates/Slice0/Obligations.lean ====
section
/-! DEFINITION. The statements for the provers.  Unless a premise says otherwise each holds of EVERY state, hence of every
configuration (the configuration is a field of the state), every environment answer and every pending event. -/

open Sys2Proof Sys2Proof.Machine

/-! ### Reset and configuration -/

/-- 10_state.md R29: after block reset `RST` is Idle and `BTN`, `LEDC` hold their parameters.  That nothing is logged,
answered or pending there is the model's reading of R31, and that the chip's configuration is a well-formed one, not
further known, is the model's choice (log entries 2, 4, 5). -/
def Obligations.ResetLeavesIdleAndParameters : Prop :=
  (∀ c : Config,
    (State.resetOf c).rst = .idle ∧ (State.resetOf c).btn = c.btnInit ∧ (State.resetOf c).ledc = c.ledcInit ∧
    (State.resetOf c).cfg = c ∧ (State.resetOf c).txLog = [] ∧ (State.resetOf c).results = [] ∧
    (State.resetOf c).rxPending = [] ∧ (State.resetOf c).reqPending = []) ∧
  State.reset = State.resetOf Config.chip ∧ Config.chip.wf = true

/-- 00_scope.md R7 (a decision of the spec, D30): a configuration with two equal inbound opcodes is refused by every step, and
the outbound bytes are not constrained. -/
def Obligations.CollidingOpcodesAreRefused : Prop :=
  (∀ s : State, (s.cfg.opReset = s.cfg.opAck ∨ s.cfg.opReset = s.cfg.opBiocEvent ∨ s.cfg.opAck = s.cfg.opBiocEvent) →
    step s = .refused .illFormedConfiguration) ∧
  ∀ (c : Config) (x y z : Byte), ({ c with cmdBiocOn := x, cmdLedUsr := y, cmdLedSet := z } : Config).wf = c.wf

/-- 10_state.md R26, R27 (the spec's decision D12) and 30_encoding.md R70 (its decision D17): the 2-bit encoding of `RST`,
in which 3 encodes no state, and the numbers of the result codes. -/
def Obligations.NumbersOfStatesAndResults : Prop :=
  ResetState.toBits .idle = 0 ∧ ResetState.toBits .awaitingUserModeAck = 1 ∧
  ResetState.toBits .awaitingLedRestoreAck = 2 ∧
  (∀ r : ResetState, ResetState.ofBits r.toBits = some r ∧ r.toBits ≠ 3) ∧
  (∀ b : BitVec 2, ResetState.ofBits b = none ↔ b = 3) ∧
  (∀ v : Byte, ReqResult.code (.okValue v) = 0) ∧ ReqResult.code .ok = 0 ∧
  ReqResult.code (.fail .transmitFailure) = 1 ∧ ReqResult.code (.fail .copyFailure) = 2 ∧
  ReqResult.code (.fail .unsupportedRequest) = 3

/-! ### Formats -/

/-- 30_encoding.md R61: the class of a packet, by equality of the whole opcode byte. -/
def Obligations.PacketClassByWholeOpcode : Prop :=
  ∀ (c : Config) (op d1 d2 : Byte), c.wf = true →
    (op = c.opReset → decode c (.packet ⟨op, d1, d2⟩) = .rxReset d1 d2) ∧
    (op = c.opAck → decode c (.packet ⟨op, d1, d2⟩) = .rxAck d1 d2) ∧
    (op = c.opBiocEvent → decode c (.packet ⟨op, d1, d2⟩) = .rxBiocEvent d1 d2) ∧
    (op ≠ c.opReset → op ≠ c.opAck → op ≠ c.opBiocEvent → decode c (.packet ⟨op, d1, d2⟩) = .rxOther op d1 d2)

/-- 30_encoding.md R69 (codes by D18): the code of each kind selects its row, and any code outside the image of `P_REQ_CODE`
is unsupported. -/
def Obligations.RequestKindByCode : Prop :=
  ∀ (c : Config) (arg : Descriptor), c.wf = true →
    decode c (.request ⟨c.reqCode.code .init, arg⟩) = .reqInitialize arg ∧
    decode c (.request ⟨c.reqCode.code .getButtons, arg⟩) = .reqGetButtons arg ∧
    decode c (.request ⟨c.reqCode.code .setLed, arg⟩) = .reqSetLed arg ∧
    decode c (.request ⟨c.reqCode.code .ledAck, arg⟩) = .reqLedAck arg ∧
    decode c (.request ⟨c.reqCode.code .ledRequest, arg⟩) = .reqLedRequest arg ∧
    decode c (.request ⟨c.reqCode.code .readLed, arg⟩) = .reqReadLed arg ∧
    ∀ code : Nat, (∀ k : ReqKind, code ≠ c.reqCode.code k) →
      decode c (.request ⟨code, arg⟩) = .reqUnsupported code arg

/-- 30_encoding.md R72: decoding the input word of a well-formed operation gives the operation back, with every operand,
under every well-formed configuration. -/
def Obligations.DecodeOfEncode : Prop :=
  ∀ (c : Config) (i : Instr) (w : PortWord), c.wf = true → i.wf c = true → encode c i = some w → decode c w = i

/-- 30_encoding.md R71, R72: every input word has a meaning, which is a well-formed input row, and encoding that row gives
the word back: no bit of an input word is dropped. -/
def Obligations.EncodeOfDecode : Prop :=
  ∀ (c : Config) (w : PortWord),
    (decode c w).wf c = true ∧ (decode c w).isInput = true ∧ encode c (decode c w) = some w

/-- 20_memory.md R41, 30_encoding.md R60: the byte decoder reads whole packets of exactly 3 bytes, byte 0 the opcode.  00_scope.md
R7 refuses a configuration with two equal inbound opcodes; that one with two equal request codes is refused too is the model's
reading of R6 (DEDUCED, log entry 11), and that it is this decoder that refuses, as `step` does, and that it names the length
it rejects, is the model's choice (DESIGN CHOICE, log entry 14). -/
def Obligations.PacketIsThreeBytes : Prop :=
  ∀ (c : Config) (bs : List Byte),
    (c.wf = false → decodeBytes c bs = .error .illFormedConfiguration) ∧
    (c.wf = true → bs.length ≠ 3 → decodeBytes c bs = .error (.notThreeBytes bs.length)) ∧
    (c.wf = true → ∀ op d1 d2, bs = [op, d1, d2] → decodeBytes c bs = .ok (decode c (.packet ⟨op, d1, d2⟩)))

/-- 95_test_vectors.md, TC1: a few packets written out byte by byte, the first byte in bits 7..0.  TC1 is a test
configuration and says nothing of the hardware; the layout of the number is the model's (log entries 3, 12). -/
def Obligations.WrittenOutPacketsDecode : Prop :=
  decodeTableWord 24 0x000046 = some (.rxReset 0x00 0x00) ∧
  decodeTableWord 24 0x000040 = some (.rxAck 0x00 0x00) ∧
  decodeTableWord 24 0xFFFE41 = some (.rxBiocEvent 0xFE 0xFF) ∧
  decodeTableWord 24 0x341247 = some (.rxOther 0x47 0x12 0x34)

/-- 30_encoding.md R62: the operands of a BIOC_EVENT packet are the low nibbles, and the high nibbles affect no state and no
output. -/
def Obligations.BiocEventReadsLowNibbles : Prop :=
  (∀ d : Byte, (buttonsNibble d).toNat = d.toNat % 16 ∧ (dirsNibble d).toNat = d.toNat % 16) ∧
  ∀ (s : State) (d1 d1' d2 d2' : Byte), d1.toNat % 16 = d1'.toNat % 16 → d2.toNat % 16 = d2'.toNat % 16 →
    exec (.rxBiocEvent d1 d2) s = exec (.rxBiocEvent d1' d2') s

/-! ### LedEncoder -/

/-- 41_led_encoder.md R100 to R104, with the bit order of `en` and `dp` by D6, the addition by D4 and the modes by D8: the byte
of each lane in its four cases, the table entry chosen by the digit's nibble alone, and the mask byte in each mode. -/
def Obligations.EncodedBytesByBits : Prop :=
  (∀ (c : Config) (desc : Descriptor) (i : Fin 4) (k : Fin 16), k.val = desc.toNat / 2 ^ (4 * i.val) % 16 →
    (desc.getLsbD (16 + i) = true → desc.getLsbD (24 + i) = false → segByte c desc i = c.segTable[k]) ∧
    (desc.getLsbD (16 + i) = true → desc.getLsbD (24 + i) = true → segByte c desc i = c.segTable[k] + 0x10) ∧
    (desc.getLsbD (16 + i) = false → desc.getLsbD (24 + i) = false → segByte c desc i = 0x00) ∧
    (desc.getLsbD (16 + i) = false → desc.getLsbD (24 + i) = true → segByte c desc i = 0x10)) ∧
  ∀ (c : Config) (desc : Descriptor),
    (c.maskMode = .fromDescriptor → (maskByte c desc).toNat = desc.toNat / 2 ^ 16 % 16) ∧
    (c.maskMode = .allFour → maskByte c desc = 0x0F)

/-- 30_encoding.md R66: an LED command is six bytes, LED_SET, the mask, and the segment bytes of digits 0 to 3 in that
order; byte 0 does not depend on the descriptor (R106, derived there). -/
def Obligations.LedCommandLayout : Prop :=
  ∀ (c : Config) (desc : Descriptor),
    (encodeLed c desc).toList =
      [c.cmdLedSet, maskByte c desc, segByte c desc 0, segByte c desc 1, segByte c desc 2, segByte c desc 3] ∧
    (encodeLed c desc).toList.length = 6 ∧ (maskByte c desc).extractLsb' 4 4 = 0

/-- 41_led_encoder.md R105 (derived there): lanes are independent.  Descriptors that agree on a digit's three fields give
it the same byte, and setting the point of one digit adds exactly 0x10 to that digit's byte and changes no other. -/
def Obligations.LanesAreIndependent : Prop :=
  (∀ (c : Config) (d d' : Descriptor) (i : Fin 4),
    (∀ j < 4, d.getLsbD (4 * i + j) = d'.getLsbD (4 * i + j)) → d.getLsbD (16 + i) = d'.getLsbD (16 + i) →
    d.getLsbD (24 + i) = d'.getLsbD (24 + i) → segByte c d i = segByte c d' i) ∧
  ∀ (c : Config) (d : Descriptor) (i j : Fin 4), d.getLsbD (24 + i) = false →
    segByte c (d ||| BitVec.twoPow 32 (24 + i)) j = if j = i then segByte c d j + 0x10 else segByte c d j

/-- 41_led_encoder.md R104, corner case (bits 23:20 by the source, bits 31:28 by D7): neither field affects the command. -/
def Obligations.ReservedDescriptorBitsIgnored : Prop :=
  ∀ (c : Config) (d d' : Descriptor), d &&& 0x0F0FFFFF = d' &&& 0x0F0FFFFF → encodeLed c d = encodeLed c d'

/-- 41_led_encoder.md R102, corner case, and the named premise `SEG_DP_CLEAR` of 92_eei_decisions.md D4: where bit 4 is clear
in every table entry, the point is an or with 0x10, and bit 4 of a segment byte is exactly the point. -/
def Obligations.PointIsOrWhereBitFourClear : Prop :=
  ∀ (c : Config) (d : Descriptor) (i : Fin 4), c.segDpClear → d.getLsbD (24 + i) = false →
    segByte c (d ||| BitVec.twoPow 32 (24 + i)) i = segByte c d i ||| 0x10 ∧ (segByte c d i).getLsbD 4 = false

/-! ### ButtonDecoder -/

/-- 42_button_decoder.md R121: bits 1 and 2 are exchanged where they differ, which equals the unconditional exchange; bits 0
and 3 pass. -/
def Obligations.WiringCorrection : Prop :=
  ∀ dn : Nibble,
    (dn.getLsbD 1 ≠ dn.getLsbD 2 → swap12 dn = dn ^^^ 0b0110) ∧
    (dn.getLsbD 1 = dn.getLsbD 2 → swap12 dn = dn) ∧
    swap12 dn = (dn &&& 0b1001) ||| ((dn &&& 0b0010) <<< 1) ||| ((dn &&& 0b0100) >>> 1)

/-- 42_button_decoder.md R120, R122: the decoded word, and that the store writes `BTN` whole and nothing else. -/
def Obligations.DecodeStoresButtonWord : Prop :=
  (∀ (buttons dirs : Nibble) (s : State),
    decodeButtons buttons dirs s =
      { s with btn := (~~~buttons).zeroExtend 8 ||| ((swap12 (~~~dirs)).zeroExtend 8 <<< 4) }) ∧
  buttonWord 0x0 0x0 = 0xFF ∧ buttonWord 0xF 0xF = 0x00 ∧ buttonWord 0xA 0x5 = 0xC5

/-- 42_button_decoder.md R123 (derived there; D5 for the low nibble): each flag of `BTN` is the complement of its raw bit,
Left and Down crossed, and DECODE is a bijection from the pairs of nibbles onto the button words. -/
def Obligations.FlagsFromRawBits : Prop :=
  (∀ (d1 d2 : Byte) (f : ButtonFlag),
    pressed (buttonWord (buttonsNibble d1) (dirsNibble d2)) f = !rawFlagBit d1 d2 f) ∧
  Function.Bijective fun p : Nibble × Nibble => buttonWord p.1 p.2

/-! ### RX rows -/

/-- 43_reset_handshake.md R141: RESET in Idle. -/
def Obligations.ResetFromIdle : Prop :=
  ∀ (s : State) (d1 d2 : Byte), s.cfg.wf = true → s.rst = .idle →
    exec (.rxReset d1 d2) s = .next { s with
      rst := .awaitingUserModeAck
      txLog := s.txLog ++ [⟨.enableEvents, [s.cfg.cmdBiocOn], s.env.tx, s.env.sent [s.cfg.cmdBiocOn]⟩] }

/-- 43_reset_handshake.md R142: the first ACK. -/
def Obligations.FirstAck : Prop :=
  ∀ (s : State) (d1 d2 : Byte), s.cfg.wf = true → s.rst = .awaitingUserModeAck →
    exec (.rxAck d1 d2) s = .next { s with
      rst := .awaitingLedRestoreAck
      txLog := s.txLog ++ [⟨.ledUserMode, [s.cfg.cmdLedUsr], s.env.tx, s.env.sent [s.cfg.cmdLedUsr]⟩] }

/-- 43_reset_handshake.md R143: the second ACK restores the cache verbatim. -/
def Obligations.SecondAckRestoresCache : Prop :=
  ∀ (s : State) (d1 d2 : Byte), s.cfg.wf = true → s.rst = .awaitingLedRestoreAck →
    exec (.rxAck d1 d2) s = .next { s with
      rst := .idle
      txLog := s.txLog ++
        [⟨.ledRestore, [s.ledc.b0, s.ledc.b1, s.ledc.b2, s.ledc.b3, s.ledc.b4, s.ledc.b5], s.env.tx,
          s.env.sent [s.ledc.b0, s.ledc.b1, s.ledc.b2, s.ledc.b3, s.ledc.b4, s.ledc.b5]⟩] }

/-- 43_reset_handshake.md R144, R147 (what a RESET mid-handshake does is the spec's decision D9): an ACK in Idle is held; a
RESET mid-handshake is held with the switch off and restarts the handshake with the switch on. -/
def Obligations.UnexpectedPacketsHeld : Prop :=
  ∀ (s : State) (d1 d2 : Byte), s.cfg.wf = true →
    (s.rst = .idle → exec (.rxAck d1 d2) s = .next s) ∧
    (s.rst ≠ .idle → s.cfg.resetFromAnyState = false → exec (.rxReset d1 d2) s = .next s) ∧
    (s.rst ≠ .idle → s.cfg.resetFromAnyState = true → exec (.rxReset d1 d2) s = .next { s with
      rst := .awaitingUserModeAck
      txLog := s.txLog ++ [⟨.enableEvents, [s.cfg.cmdBiocOn], s.env.tx, s.env.sent [s.cfg.cmdBiocOn]⟩] })

/-- 43_reset_handshake.md R145: the tests are equalities, so an opcode that is neither RESET nor ACK never moves the
handshake, and one that is not ACK never acknowledges. -/
def Obligations.OnlyAckAcknowledges : Prop :=
  ∀ (op : Byte) (s : State),
    (op ≠ s.cfg.opReset → op ≠ s.cfg.opAck → hsStep op s = s) ∧
    (op ≠ s.cfg.opAck → (hsStep op s).rst ≠ .awaitingLedRestoreAck ∨ (hsStep op s).rst = s.rst) ∧
    (op ≠ s.cfg.opAck → s.rst ≠ .idle → (hsStep op s).rst ≠ .idle)

/-- 44_packet_router.md R162: a BIOC_EVENT packet stores the decoded nibbles and changes nothing else, in every handshake
state (the hold is R144). -/
def Obligations.BiocEventStoresButtons : Prop :=
  ∀ (s : State) (d1 d2 : Byte), s.cfg.wf = true →
    exec (.rxBiocEvent d1 d2) s = .next { s with btn := buttonWord (buttonsNibble d1) (dirsNibble d2) }

/-- 44_packet_router.md R163: a packet of any other opcode changes nothing and is not reported. -/
def Obligations.OtherOpcodeIgnored : Prop :=
  ∀ (s : State) (op d1 d2 : Byte), op ≠ s.cfg.opReset → op ≠ s.cfg.opAck → op ≠ s.cfg.opBiocEvent →
    exec (.rxOther op d1 d2) s = .next s

/-- 44_packet_router.md R165 (derived there; default configuration, the hold of a RESET mid-handshake by D9): ROUTE of any
packet, element by element. -/
def Obligations.RouteByClass : Prop :=
  ∀ (s : State) (op d1 d2 : Byte), s.cfg.wf = true → s.cfg.resetFromAnyState = false →
    (route op d1 d2 s).ledc = s.ledc ∧ (route op d1 d2 s).results = s.results ∧
    (route op d1 d2 s).btn =
      (if op = s.cfg.opBiocEvent then buttonWord (buttonsNibble d1) (dirsNibble d2) else s.btn) ∧
    (route op d1 d2 s).rst =
      (if op = s.cfg.opReset ∧ s.rst = .idle then .awaitingUserModeAck
       else if op = s.cfg.opAck ∧ s.rst = .awaitingUserModeAck then .awaitingLedRestoreAck
       else if op = s.cfg.opAck ∧ s.rst = .awaitingLedRestoreAck then .idle
       else s.rst) ∧
    (route op d1 d2 s).txLog.map Submission.bytes = s.txLog.map Submission.bytes ++
      (if op = s.cfg.opReset ∧ s.rst = .idle then [[s.cfg.cmdBiocOn]]
       else if op = s.cfg.opAck ∧ s.rst = .awaitingUserModeAck then [[s.cfg.cmdLedUsr]]
       else if op = s.cfg.opAck ∧ s.rst = .awaitingLedRestoreAck then [s.ledc.toList]
       else [])

/-- 43_reset_handshake.md R146 (a decision of the spec, D16): the outcome of a handshake's submission changes neither the
transition nor any other element, only its own log entry. -/
def Obligations.HandshakeIgnoresOutcome : Prop :=
  ∀ (i : Instr) (s : State) (a : EnvAnswer), i.isPacket = true →
    ∃ t u, exec i s = .next t ∧ exec i { s with env := a } = .next u ∧
      u.rst = t.rst ∧ u.btn = t.btn ∧ u.ledc = t.ledc ∧ u.results = s.results ∧
      u.txLog.map Submission.bytes = t.txLog.map Submission.bytes

/-- 43_reset_handshake.md R150 (derived there): the full handshake, RESET then ACK then ACK, from Idle, submits the three
commands in order, returns to Idle and changes nothing else. -/
def Obligations.FullHandshake : Prop :=
  ∀ (s : State) (a1 a2 b1 b2 c1 c2 : Byte), s.cfg.wf = true → s.rst = .idle →
    execAll [.rxReset a1 a2, .rxAck b1 b2, .rxAck c1 c2] s = .next { s with
      txLog := s.txLog ++
        [⟨.enableEvents, [s.cfg.cmdBiocOn], s.env.tx, s.env.sent [s.cfg.cmdBiocOn]⟩,
         ⟨.ledUserMode, [s.cfg.cmdLedUsr], s.env.tx, s.env.sent [s.cfg.cmdLedUsr]⟩,
         ⟨.ledRestore, s.ledc.toList, s.env.tx, s.env.sent s.ledc.toList⟩] }

/-- 43_reset_handshake.md R149 (derived there): a `setLed` between the RESET and the second ACK, wherever it falls and
whatever its outcome, is the one restored. -/
def Obligations.SetLedMidHandshakeIsRestored : Prop :=
  ∀ (s : State) (d1 d2 : Byte) (desc : Descriptor) (a : EnvAnswer), s.cfg.wf = true → s.rst ≠ .idle →
    ∃ t u, exec (.reqSetLed desc) s = .next t ∧
      execAll (if s.rst = .awaitingUserModeAck then [.rxAck d1 d2, .rxAck d1 d2] else [.rxAck d1 d2])
        { t with env := a } = .next u ∧
      u.rst = .idle ∧ u.ledc = encodeLed s.cfg desc ∧
      u.txLog.getLast? = some ⟨.ledRestore, (encodeLed s.cfg desc).toList, a.tx, a.sent (encodeLed s.cfg desc).toList⟩

/-! ### REQ rows -/

/-- 45_requests.md R180 (no state change, any number of calls: the spec's decision D21): one 2-byte submission and the
result of its outcome. -/
def Obligations.InitializeSubmitsInit : Prop :=
  ∀ (s : State) (arg : Descriptor),
    exec (.reqInitialize arg) s = .next { s with
      txLog := s.txLog ++ [⟨.init, [s.cfg.cmdBiocOn, s.cfg.cmdLedUsr], s.env.tx,
        s.env.sent [s.cfg.cmdBiocOn, s.cfg.cmdLedUsr]⟩]
      results := s.results ++ [if s.env.tx = .accepted then .ok else .fail .transmitFailure] }

/-- 45_requests.md R181: the button word, or CopyFailure; `BTN` is not consumed and nothing is submitted. -/
def Obligations.GetButtonsReturnsWord : Prop :=
  ∀ (s : State) (arg : Descriptor),
    exec (.reqGetButtons arg) s = .next { s with
      results := s.results ++ [if s.env.destWritable = true then .okValue s.btn else .fail .copyFailure] }

/-- 45_requests.md R182: encode, write the cache, submit; the cache write stands whatever the outcome. -/
def Obligations.SetLedWritesCacheThenSubmits : Prop :=
  ∀ (s : State) (desc : Descriptor),
    exec (.reqSetLed desc) s = .next { s with
      ledc := encodeLed s.cfg desc
      txLog := s.txLog ++ [⟨.ledSet, (encodeLed s.cfg desc).toList, s.env.tx,
        s.env.sent (encodeLed s.cfg desc).toList⟩]
      results := s.results ++ [if s.env.tx = .accepted then .ok else .fail .transmitFailure] }

/-- 45_requests.md R183, R184: LED_ACK and LED_REQUEST answer OK and change nothing, any argument ignored. -/
def Obligations.NoOpRequestsAnswerOk : Prop :=
  ∀ (s : State) (arg : Descriptor),
    exec (.reqLedAck arg) s = .next { s with results := s.results ++ [.ok] } ∧
    exec (.reqLedRequest arg) s = .next { s with results := s.results ++ [.ok] }

/-- 45_requests.md R185 (no value returned: the spec's decision D20): READ_LED answers OK, whether or not a destination can
be written, and changes nothing. -/
def Obligations.ReadLedAnswersOk : Prop :=
  ∀ (s : State) (arg : Descriptor),
    exec (.reqReadLed arg) s = .next { s with results := s.results ++ [.ok] }

/-- 45_requests.md R186: an unsupported request answers UnsupportedRequest, submits nothing and changes nothing. -/
def Obligations.UnsupportedRequestFails : Prop :=
  ∀ (s : State) (code : Nat) (arg : Descriptor), (∀ k : ReqKind, code ≠ s.cfg.reqCode.code k) →
    decode s.cfg (.request ⟨code, arg⟩) = .reqUnsupported code arg ∧
    exec (.reqUnsupported code arg) s = .next { s with results := s.results ++ [.fail .unsupportedRequest] }

/-- 60_exceptions.md R201, R202: TransmitFailure exactly when the one submission of an INITIALIZE or SET_LED is rejected, not
retried; CopyFailure exactly when the copy of a GET_BUTTONS fails; a rejected handshake submission raises nothing. -/
def Obligations.FailuresExactlyWhen : Prop :=
  (∀ (i : Instr) (s t : State), i.isRequest = true → exec i s = .next t →
    (t.results = s.results ++ [.fail .transmitFailure] ↔
      ((∃ arg, i = .reqInitialize arg) ∨ ∃ desc, i = .reqSetLed desc) ∧ s.env.tx = .rejected) ∧
    (t.results = s.results ++ [.fail .copyFailure] ↔ (∃ arg, i = .reqGetButtons arg) ∧ s.env.destWritable = false) ∧
    (((∃ arg, i = .reqInitialize arg) ∨ ∃ desc, i = .reqSetLed desc) → t.txLog.length = s.txLog.length + 1)) ∧
  ∀ (i : Instr) (s t : State), i.isPacket = true → exec i s = .next t → t.results = s.results

/-- 60_exceptions.md R203, R205 (derived there): a request's code decides whether it is unsupported, before anything else;
UnsupportedRequest is then its result, and no other request has it. -/
def Obligations.UnsupportedExactlyWhen : Prop :=
  ∀ (r : RawRequest) (s t : State), exec (decode s.cfg (.request r)) s = .next t →
    (t.results = s.results ++ [.fail .unsupportedRequest] ↔ ∀ k : ReqKind, r.code ≠ s.cfg.reqCode.code k) ∧
    ((∀ k : ReqKind, r.code ≠ s.cfg.reqCode.code k) → t = { s with results := s.results ++ [.fail .unsupportedRequest] })

/-- 41_led_encoder.md R108 (derived there): two `setLed(d)` with no other `setLed` between them submit the same bytes and
leave the cache equal to them, whatever other operations come between. -/
def Obligations.SetLedIsIdempotent : Prop :=
  ∀ (desc : Descriptor) (between : List Instr) (s t u v : State),
    (∀ i ∈ between, ∀ d, i ≠ .reqSetLed d) →
    exec (.reqSetLed desc) s = .next t → execAll between t = .next u → exec (.reqSetLed desc) u = .next v →
    u.ledc = t.ledc ∧ v.ledc = t.ledc ∧
    (t.txLog.getLast?.map Submission.bytes) = some t.ledc.toList ∧
    (v.txLog.getLast?.map Submission.bytes) = some t.ledc.toList

/-- 10_state.md R23, 45_requests.md R181: level semantics.  With no BIOC_EVENT between them two reads give the same word,
however many reads and other operations come between. -/
def Obligations.ButtonsAreLevel : Prop :=
  ∀ (between : List Instr) (s u : State), s.cfg.wf = true →
    (∀ i ∈ between, i.wf s.cfg = true ∧ ∀ d1 d2, i ≠ .rxBiocEvent d1 d2) →
    execAll between s = .next u → u.btn = s.btn

/-- 45_requests.md R187, 70_reset_and_hazards.md R225 (derived there): no request reads or writes `RST`: run from states that
differ in `RST` alone, a request answers states that differ in `RST` alone. -/
def Obligations.RequestsCannotSeeResetState : Prop :=
  ∀ (i : Instr) (s t : State) (r : ResetState), i.isRequest = true → exec i s = .next t →
    t.rst = s.rst ∧ exec i { s with rst := r } = .next { t with rst := r }

/-! ### TX rows -/

/-- 30_encoding.md R67: the five command forms, each one submission of exactly its bytes, the outcome and the wire effect the
environment's.  That a TX row on its own is one submission is the model's reading (log entry 9). -/
def Obligations.TxRowsSubmitTheirBytes : Prop :=
  ∀ (s : State) (desc : Descriptor),
    exec .txEnableEvents s = .next { s with txLog := s.txLog ++
      [⟨.enableEvents, [s.cfg.cmdBiocOn], s.env.tx, s.env.sent [s.cfg.cmdBiocOn]⟩] } ∧
    exec .txLedUserMode s = .next { s with txLog := s.txLog ++
      [⟨.ledUserMode, [s.cfg.cmdLedUsr], s.env.tx, s.env.sent [s.cfg.cmdLedUsr]⟩] } ∧
    exec .txLedRestore s = .next { s with txLog := s.txLog ++
      [⟨.ledRestore, s.ledc.toList, s.env.tx, s.env.sent s.ledc.toList⟩] } ∧
    exec (.txLedSet desc) s = .next { s with txLog := s.txLog ++
      [⟨.ledSet, (encodeLed s.cfg desc).toList, s.env.tx, s.env.sent (encodeLed s.cfg desc).toList⟩] } ∧
    exec .txInit s = .next { s with txLog := s.txLog ++
      [⟨.init, [s.cfg.cmdBiocOn, s.cfg.cmdLedUsr], s.env.tx, s.env.sent [s.cfg.cmdBiocOn, s.cfg.cmdLedUsr]⟩] }

/-- 30_encoding.md R67, column "submitted by": each input row that submits does so by its TX row. -/
def Obligations.InputRowsSubmitByTxRows : Prop :=
  ∀ (s : State) (d1 d2 : Byte) (desc : Descriptor), s.cfg.wf = true →
    (s.rst = .idle → exec (.rxReset d1 d2) s = exec .txEnableEvents { s with rst := .awaitingUserModeAck }) ∧
    (s.rst = .awaitingUserModeAck →
      exec (.rxAck d1 d2) s = exec .txLedUserMode { s with rst := .awaitingLedRestoreAck }) ∧
    (s.rst = .awaitingLedRestoreAck → exec (.rxAck d1 d2) s = exec .txLedRestore { s with rst := .idle }) ∧
    (∃ t, exec (.txLedSet desc) { s with ledc := encodeLed s.cfg desc } = .next t ∧
      exec (.reqSetLed desc) s = .next (t.finish s.env.tx.result)) ∧
    (∃ t, exec .txInit s = .next t ∧ exec (.reqInitialize desc) s = .next (t.finish s.env.tx.result))

/-! ### Frames -/

/-- 44_packet_router.md R160, R162 to R164, 20_memory.md R56: what a packet leaves unchanged. -/
def Obligations.PacketFrame : Prop :=
  ∀ (i : Instr) (s t : State), i.isPacket = true → exec i s = .next t →
    t.cfg = s.cfg ∧ t.ledc = s.ledc ∧ t.results = s.results ∧ t.rxPending = s.rxPending ∧
    t.reqPending = s.reqPending ∧ t.sched = s.sched ∧ t.turn = s.turn ∧ t.env = s.env ∧
    (t.txLog = s.txLog ∨ ∃ sub, t.txLog = s.txLog ++ [sub]) ∧
    (s.cfg.wf = true → i.wf s.cfg = true → (∀ d1 d2, i ≠ .rxBiocEvent d1 d2) → t.btn = s.btn) ∧
    (s.cfg.wf = true → (∃ d1 d2, i = .rxBiocEvent d1 d2) → t.rst = s.rst ∧ t.txLog = s.txLog)

/-- 45_requests.md R180 to R187, 20_memory.md R56: what a request leaves unchanged. -/
def Obligations.RequestFrame : Prop :=
  ∀ (i : Instr) (s t : State), i.isRequest = true → exec i s = .next t →
    t.cfg = s.cfg ∧ t.btn = s.btn ∧ t.rst = s.rst ∧ t.rxPending = s.rxPending ∧ t.reqPending = s.reqPending ∧
    t.sched = s.sched ∧ t.turn = s.turn ∧ t.env = s.env ∧ (∃ r, t.results = s.results ++ [r]) ∧
    ((∀ d, i ≠ .reqSetLed d) → t.ledc = s.ledc) ∧
    ((∀ d, i ≠ .reqSetLed d) → (∀ a, i ≠ .reqInitialize a) → t.txLog = s.txLog)

/-! ### The machine -/

/-- 20_memory.md R40, R42, R46, R50, R51: where it is an agent's turn (by the schedule, or by the free value past its end) or
the other agent has nothing pending, a step takes the agent's oldest event and runs the operation it decodes to, under the
answers that come with it.  The queues, the schedule and the turn are the model's (log entries 4, 5). -/
def Obligations.StepRunsDecodedEvent : Prop :=
  (∀ (s : State) (e : RxEvent) (rest : List RxEvent), s.cfg.wf = true → s.rxPending = e :: rest →
    (s.agentNext = .rx ∨ s.reqPending = []) →
    step s = exec (decode s.cfg (.packet e.packet))
      { s with rxPending := rest, env := e.env, sched := s.sched.tail, turn := s.turn + 1 }) ∧
  ∀ (s : State) (e : ReqEvent) (rest : List ReqEvent), s.cfg.wf = true → s.reqPending = e :: rest →
    (s.agentNext = .req ∨ s.rxPending = []) →
    step s = exec (decode s.cfg (.request e.request))
      { s with reqPending := rest, env := e.env, sched := s.sched.tail, turn := s.turn + 1 }

/-- 70_reset_and_hazards.md R220: with nothing pending the block waits for its next event, unchanged (the waiting step is the
model's, log entry 6). -/
def Obligations.StepWaitsWithoutEvents : Prop :=
  ∀ s : State, s.cfg.wf = true → s.rxPending = [] → s.reqPending = [] → step s = .next s

/-- 60_exceptions.md R209, 30_encoding.md R71: no operation traps; every operation completes in one step, and every step of a
well-formed configuration completes.  Three clauses are wider than those rules, and the model's choice: a step with nothing
pending completes (the waiting step, log entry 6), a TX row run by itself completes (log entry 9), and `exec` completes under
every configuration, ill-formed ones too, since only `step` refuses those (log entry 14). -/
def Obligations.EveryOperationCompletes : Prop :=
  (∀ (i : Instr) (s : State), ∃ t, exec i s = .next t) ∧ ∀ s : State, s.cfg.wf = true → ∃ t, step s = .next t

/-- 20_memory.md R51, 60_exceptions.md R208: with a packet and a request pending, either may be taken first; whatever the
schedule, one of the two oldest is. -/
def Obligations.EitherAgentMayGoFirst : Prop :=
  ∀ (s : State) (p : RxEvent) (ps : List RxEvent) (q : ReqEvent) (qs : List ReqEvent), s.cfg.wf = true →
    s.rxPending = p :: ps → s.reqPending = q :: qs →
    (∃ l t, step { s with sched := l } = .next t ∧ t.rxPending = ps ∧ t.reqPending = q :: qs) ∧
    (∃ l t, step { s with sched := l } = .next t ∧ t.rxPending = p :: ps ∧ t.reqPending = qs) ∧
    ∀ t, step s = .next t →
      (t.rxPending = ps ∧ t.reqPending = q :: qs) ∨ (t.rxPending = p :: ps ∧ t.reqPending = qs)

/-- 20_memory.md R42, R46, R51: each step takes exactly the oldest packet, or exactly the oldest request, or nothing; a
request taken gets exactly one result, and a packet none.  That a step takes nothing, and leaves the state as it is, only
where nothing is pending is the model's waiting step (log entry 6); the queues are the model's (log entry 5). -/
def Obligations.EventsTakenInOrder : Prop :=
  ∀ s t : State, step s = .next t →
    (s.rxPending = [] ∧ s.reqPending = [] ∧ t = s) ∨
    (∃ e, s.rxPending = e :: t.rxPending ∧ t.reqPending = s.reqPending ∧ t.results = s.results) ∨
    (∃ e, s.reqPending = e :: t.reqPending ∧ t.rxPending = s.rxPending ∧ ∃ r, t.results = s.results ++ [r])

/-- 00_scope.md R6, 10_state.md R21: the configuration is fixed for the life of the block. -/
def Obligations.ConfigurationIsFixed : Prop :=
  ∀ (n : Nat) (s t : State), Sys2Proof.core.run n s = .next t → t.cfg = s.cfg

/-- 10_state.md R28, 43_reset_handshake.md R145: `RST` changes only by a packet whose opcode is RESET or ACK. -/
def Obligations.ResetStateChangesOnlyByHandshake : Prop :=
  ∀ s t : State, step s = .next t → t.rst ≠ s.rst →
    ∃ e, s.rxPending = e :: t.rxPending ∧ t.reqPending = s.reqPending ∧
      (e.packet.opcode = s.cfg.opReset ∨ e.packet.opcode = s.cfg.opAck)

/-- 10_state.md R23: `BTN` changes only by a BIOC_EVENT packet, to its decoded word. -/
def Obligations.ButtonsChangeOnlyByBiocEvent : Prop :=
  ∀ s t : State, step s = .next t → t.btn ≠ s.btn →
    ∃ e, s.rxPending = e :: t.rxPending ∧ t.reqPending = s.reqPending ∧ e.packet.opcode = s.cfg.opBiocEvent ∧
      t.btn = buttonWord (buttonsNibble e.packet.data1) (dirsNibble e.packet.data2)

/-- 10_state.md R24: `LEDC` changes only by a SET_LED request, to the command of its descriptor. -/
def Obligations.CacheChangesOnlyBySetLed : Prop :=
  ∀ s t : State, step s = .next t → t.ledc ≠ s.ledc →
    ∃ e, s.reqPending = e :: t.reqPending ∧ t.rxPending = s.rxPending ∧
      e.request.code = s.cfg.reqCode.code .setLed ∧ t.ledc = encodeLed s.cfg e.request.arg

/-- 20_memory.md R53 (derived there): operations on `BTN` alone and operations on `RST`, `LEDC` and TX alone do not interfere.
A BIOC_EVENT gives the same state in either order with every other input row but GET_BUTTONS (so with RESET, ACK, OTHER,
INITIALIZE and SET_LED), and a GET_BUTTONS with every packet but a BIOC_EVENT (RESET, ACK, OTHER).  With another request it
gives the same state but for the order of the two results, which R51 fixes as the order of the requests. -/
def Obligations.DisjointOperationsCommute : Prop :=
  ∀ (s : State) (i : Instr), s.cfg.wf = true → i.wf s.cfg = true → (∀ d1 d2, i ≠ .rxBiocEvent d1 d2) →
    (∀ d1 d2 : Byte, i.isInput = true → (∀ arg, i ≠ .reqGetButtons arg) →
      execAll [.rxBiocEvent d1 d2, i] s = execAll [i, .rxBiocEvent d1 d2] s) ∧
    (∀ arg : Descriptor, i.isPacket = true →
      execAll [.reqGetButtons arg, i] s = execAll [i, .reqGetButtons arg] s) ∧
    ∀ arg : Descriptor, i.isRequest = true →
      ∃ (t : State) (r r' : ReqResult),
        execAll [.reqGetButtons arg, i] s = .next { t with results := s.results ++ [r, r'] } ∧
        execAll [i, .reqGetButtons arg] s = .next { t with results := s.results ++ [r', r] }

/-- The invariant holds at reset, under every well-formed configuration, so under the chip's (10_state.md R29, R25). -/
def Obligations.GoodAtReset : Prop :=
  (∀ c : Config, c.wf = true → Inv (State.resetOf c)) ∧ Inv State.reset

/-- 10_state.md R25, 30_encoding.md R67, 43_reset_handshake.md R150, 20_memory.md R45: every step keeps the invariant: the
cache is the last command submitted by `setLed` (accepted or not), the handshake state is the one its last submission left,
every submission is one of the five forms with its bytes (a restore's bytes being the cache's at that point), and an accepted
submission puts all its bytes on the wire, a rejected one some first part of them. -/
def Obligations.StepKeepsGood : Prop :=
  ∀ s t : State, Inv s → step s = .next t → Inv t

/-- 20_memory.md R52: in a good state, the last LED bytes submitted on TX, by a `setLed` or by a restore, are those in the
cache: a restore and a `setLed` cannot cross. -/
def Obligations.LastLedBytesAreCached : Prop :=
  ∀ (s : State) (before after : List Submission) (sub : Submission), Inv s →
    s.txLog = before ++ sub :: after → (sub.form = .ledSet ∨ sub.form = .ledRestore) →
    (∀ x ∈ after, x.form ≠ .ledSet ∧ x.form ≠ .ledRestore) → sub.bytes = s.ledc.toList

/-- 10_state.md R29 (its last sentence, derived there): while no pending packet is a BIOC_EVENT, a run keeps `BTN`; while no
pending request is a SET_LED, it keeps `LEDC`.  So the first reads after reset give the parameters. -/
def Obligations.RunKeepsButtonsAndCache : Prop :=
  ∀ (n : Nat) (s t : State), Sys2Proof.core.run n s = .next t →
    ((∀ e ∈ s.rxPending, e.packet.opcode ≠ s.cfg.opBiocEvent) → t.btn = s.btn) ∧
    ((∀ e ∈ s.reqPending, e.request.code ≠ s.cfg.reqCode.code .setLed) → t.ledc = s.ledc)

/-- 70_reset_and_hazards.md R224 (derived there; the switch is D9's): the handshake stalls.  With the switch off and no ACK
pending, a state that waits for one waits for ever, RESETs included. -/
def Obligations.HandshakeStallsWithoutAck : Prop :=
  ∀ (n : Nat) (s t : State), s.cfg.resetFromAnyState = false → s.rst ≠ .idle →
    (∀ e ∈ s.rxPending, e.packet.opcode ≠ s.cfg.opAck) → Sys2Proof.core.run n s = .next t → t.rst = s.rst

/-- 20_memory.md R42, R46, R50, R51: every pending event is taken, each exactly once.  As many steps as there are pending
events run their operations one after another in one total order, in which the packets stand as they were queued and the
requests as they were queued, none missing and none twice; then nothing is pending, and each request has had exactly one
result.  The queues, the schedule and the bound in steps are the model's (log entries 5, 15). -/
def Obligations.EveryPendingEventIsTaken : Prop :=
  ∀ s : State, s.cfg.wf = true →
    ∃ (order : List PendingEvent) (t : State),
      order.filterMap PendingEvent.asPacket = s.rxPending ∧ order.filterMap PendingEvent.asRequest = s.reqPending ∧
      Sys2Proof.core.run (s.rxPending.length + s.reqPending.length) s = .next t ∧ runEvents order s = .next t ∧
      t.rxPending = [] ∧ t.reqPending = [] ∧ t.results.length = s.results.length + s.reqPending.length
end

