-- ==== Sys2Proof/Laws/Config.lean ====
section
/-! SUPPORT. What a well-formed configuration gives, and what the two rows selected by exclusion exclude. -/

namespace Sys2Proof

theorem Config.wf_iff (c : Config) : c.wf = true ↔ c.opcodesDistinct = true ∧ c.reqCodesInjective = true := by
  simp [Config.wf]

theorem Config.opcodesDistinct_iff (c : Config) :
    c.opcodesDistinct = true ↔ c.opReset ≠ c.opAck ∧ c.opReset ≠ c.opBiocEvent ∧ c.opAck ≠ c.opBiocEvent := by
  simp [Config.opcodesDistinct]

/-- R7's premise, as the facts proofs use. -/
theorem Config.opcodes_of_wf {c : Config} (h : c.wf = true) :
    c.opReset ≠ c.opAck ∧ c.opReset ≠ c.opBiocEvent ∧ c.opAck ≠ c.opBiocEvent :=
  c.opcodesDistinct_iff.mp (c.wf_iff.mp h).1

/-- R6: the codes of a well-formed configuration are pairwise distinct. -/
theorem Config.codes_of_wf {c : Config} (h : c.wf = true) : (ReqKind.all.map c.reqCode.code).Nodup := by
  simpa [Config.reqCodesInjective] using (c.wf_iff.mp h).2

theorem Config.isOtherOpcode_iff (c : Config) (op : Byte) :
    c.isOtherOpcode op = true ↔ op ≠ c.opReset ∧ op ≠ c.opAck ∧ op ≠ c.opBiocEvent := by
  simp [Config.isOtherOpcode]

theorem Config.isUnsupportedCode_iff (c : Config) (code : Nat) :
    c.isUnsupportedCode code = true ↔ code ≠ c.reqCode.init ∧ code ≠ c.reqCode.getButtons ∧ code ≠ c.reqCode.setLed ∧
      code ≠ c.reqCode.ledAck ∧ code ≠ c.reqCode.ledRequest ∧ code ≠ c.reqCode.readLed := by
  simp [Config.isUnsupportedCode, ReqKind.all, ReqCodes.code]

theorem Config.tc1_wf : Config.tc1.wf = true := by decide

/-- The chip's configuration is a well-formed one, whichever it is. -/
theorem Config.chip_wf : Config.chip.wf = true := by
  unfold Config.chip
  split
  · assumption
  · exact Config.tc1_wf

/-- What a packet decodes to, by class (R61). -/
theorem decodePacket_cases (c : Config) (p : RawPacket) :
    (p.opcode = c.opReset ∧ decodePacket c p = .rxReset p.data1 p.data2) ∨
    (p.opcode = c.opAck ∧ decodePacket c p = .rxAck p.data1 p.data2) ∨
    (p.opcode = c.opBiocEvent ∧ decodePacket c p = .rxBiocEvent p.data1 p.data2) ∨
    (c.isOtherOpcode p.opcode = true ∧ decodePacket c p = .rxOther p.opcode p.data1 p.data2) := by
  unfold decodePacket
  split_ifs with h1 h2 h3
  · exact .inl ⟨h1, rfl⟩
  · exact .inr (.inl ⟨h2, rfl⟩)
  · exact .inr (.inr (.inl ⟨h3, rfl⟩))
  · exact .inr (.inr (.inr ⟨(c.isOtherOpcode_iff _).mpr ⟨h1, h2, h3⟩, rfl⟩))

/-- What a request decodes to, by kind (R69). -/
theorem decodeRequest_cases (c : Config) (r : RawRequest) :
    (r.code = c.reqCode.init ∧ decodeRequest c r = .reqInitialize r.arg) ∨
    (r.code = c.reqCode.getButtons ∧ decodeRequest c r = .reqGetButtons r.arg) ∨
    (r.code = c.reqCode.setLed ∧ decodeRequest c r = .reqSetLed r.arg) ∨
    (r.code = c.reqCode.ledAck ∧ decodeRequest c r = .reqLedAck r.arg) ∨
    (r.code = c.reqCode.ledRequest ∧ decodeRequest c r = .reqLedRequest r.arg) ∨
    (r.code = c.reqCode.readLed ∧ decodeRequest c r = .reqReadLed r.arg) ∨
    (c.isUnsupportedCode r.code = true ∧ decodeRequest c r = .reqUnsupported r.code r.arg) := by
  unfold decodeRequest
  split_ifs with h1 h2 h3 h4 h5 h6
  · exact .inl ⟨h1, rfl⟩
  · exact .inr (.inl ⟨h2, rfl⟩)
  · exact .inr (.inr (.inl ⟨h3, rfl⟩))
  · exact .inr (.inr (.inr (.inl ⟨h4, rfl⟩)))
  · exact .inr (.inr (.inr (.inr (.inl ⟨h5, rfl⟩))))
  · exact .inr (.inr (.inr (.inr (.inr (.inl ⟨h6, rfl⟩)))))
  · exact .inr (.inr (.inr (.inr (.inr (.inr ⟨(c.isUnsupportedCode_iff _).mpr ⟨h1, h2, h3, h4, h5, h6⟩, rfl⟩)))))

end Sys2Proof
end

