-- ==== Sys2Proof/Laws/State.lean ====
section
/-! SUPPORT. One lemma per field per update of the state, so that no later proof unfolds a record update. -/

namespace Sys2Proof.Machine

variable (s : State)

@[simp] theorem State.writeBtn_cfg (v : Byte) : (s.writeBtn v).cfg = s.cfg := rfl
@[simp] theorem State.writeBtn_btn (v : Byte) : (s.writeBtn v).btn = v := rfl
@[simp] theorem State.writeBtn_ledc (v : Byte) : (s.writeBtn v).ledc = s.ledc := rfl
@[simp] theorem State.writeBtn_rst (v : Byte) : (s.writeBtn v).rst = s.rst := rfl
@[simp] theorem State.writeBtn_txLog (v : Byte) : (s.writeBtn v).txLog = s.txLog := rfl
@[simp] theorem State.writeBtn_results (v : Byte) : (s.writeBtn v).results = s.results := rfl
@[simp] theorem State.writeBtn_rxPending (v : Byte) : (s.writeBtn v).rxPending = s.rxPending := rfl
@[simp] theorem State.writeBtn_reqPending (v : Byte) : (s.writeBtn v).reqPending = s.reqPending := rfl
@[simp] theorem State.writeBtn_sched (v : Byte) : (s.writeBtn v).sched = s.sched := rfl
@[simp] theorem State.writeBtn_turn (v : Byte) : (s.writeBtn v).turn = s.turn := rfl
@[simp] theorem State.writeBtn_env (v : Byte) : (s.writeBtn v).env = s.env := rfl

@[simp] theorem State.writeLedc_cfg (cmd : LedBytes) : (s.writeLedc cmd).cfg = s.cfg := rfl
@[simp] theorem State.writeLedc_btn (cmd : LedBytes) : (s.writeLedc cmd).btn = s.btn := rfl
@[simp] theorem State.writeLedc_ledc (cmd : LedBytes) : (s.writeLedc cmd).ledc = cmd := rfl
@[simp] theorem State.writeLedc_rst (cmd : LedBytes) : (s.writeLedc cmd).rst = s.rst := rfl
@[simp] theorem State.writeLedc_txLog (cmd : LedBytes) : (s.writeLedc cmd).txLog = s.txLog := rfl
@[simp] theorem State.writeLedc_results (cmd : LedBytes) : (s.writeLedc cmd).results = s.results := rfl
@[simp] theorem State.writeLedc_rxPending (cmd : LedBytes) : (s.writeLedc cmd).rxPending = s.rxPending := rfl
@[simp] theorem State.writeLedc_reqPending (cmd : LedBytes) : (s.writeLedc cmd).reqPending = s.reqPending := rfl
@[simp] theorem State.writeLedc_sched (cmd : LedBytes) : (s.writeLedc cmd).sched = s.sched := rfl
@[simp] theorem State.writeLedc_turn (cmd : LedBytes) : (s.writeLedc cmd).turn = s.turn := rfl
@[simp] theorem State.writeLedc_env (cmd : LedBytes) : (s.writeLedc cmd).env = s.env := rfl

@[simp] theorem State.writeRst_cfg (r : ResetState) : (s.writeRst r).cfg = s.cfg := rfl
@[simp] theorem State.writeRst_btn (r : ResetState) : (s.writeRst r).btn = s.btn := rfl
@[simp] theorem State.writeRst_ledc (r : ResetState) : (s.writeRst r).ledc = s.ledc := rfl
@[simp] theorem State.writeRst_rst (r : ResetState) : (s.writeRst r).rst = r := rfl
@[simp] theorem State.writeRst_txLog (r : ResetState) : (s.writeRst r).txLog = s.txLog := rfl
@[simp] theorem State.writeRst_results (r : ResetState) : (s.writeRst r).results = s.results := rfl
@[simp] theorem State.writeRst_rxPending (r : ResetState) : (s.writeRst r).rxPending = s.rxPending := rfl
@[simp] theorem State.writeRst_reqPending (r : ResetState) : (s.writeRst r).reqPending = s.reqPending := rfl
@[simp] theorem State.writeRst_sched (r : ResetState) : (s.writeRst r).sched = s.sched := rfl
@[simp] theorem State.writeRst_turn (r : ResetState) : (s.writeRst r).turn = s.turn := rfl
@[simp] theorem State.writeRst_env (r : ResetState) : (s.writeRst r).env = s.env := rfl

@[simp] theorem State.transmit_cfg (f : TxForm) (bs : List Byte) : (s.transmit f bs).cfg = s.cfg := rfl
@[simp] theorem State.transmit_btn (f : TxForm) (bs : List Byte) : (s.transmit f bs).btn = s.btn := rfl
@[simp] theorem State.transmit_ledc (f : TxForm) (bs : List Byte) : (s.transmit f bs).ledc = s.ledc := rfl
@[simp] theorem State.transmit_rst (f : TxForm) (bs : List Byte) : (s.transmit f bs).rst = s.rst := rfl
@[simp] theorem State.transmit_txLog (f : TxForm) (bs : List Byte) : (s.transmit f bs).txLog = s.txLog ++ [s.env.submission f bs] := rfl
@[simp] theorem State.transmit_results (f : TxForm) (bs : List Byte) : (s.transmit f bs).results = s.results := rfl
@[simp] theorem State.transmit_rxPending (f : TxForm) (bs : List Byte) : (s.transmit f bs).rxPending = s.rxPending := rfl
@[simp] theorem State.transmit_reqPending (f : TxForm) (bs : List Byte) : (s.transmit f bs).reqPending = s.reqPending := rfl
@[simp] theorem State.transmit_sched (f : TxForm) (bs : List Byte) : (s.transmit f bs).sched = s.sched := rfl
@[simp] theorem State.transmit_turn (f : TxForm) (bs : List Byte) : (s.transmit f bs).turn = s.turn := rfl
@[simp] theorem State.transmit_env (f : TxForm) (bs : List Byte) : (s.transmit f bs).env = s.env := rfl

@[simp] theorem State.finish_cfg (r : ReqResult) : (s.finish r).cfg = s.cfg := rfl
@[simp] theorem State.finish_btn (r : ReqResult) : (s.finish r).btn = s.btn := rfl
@[simp] theorem State.finish_ledc (r : ReqResult) : (s.finish r).ledc = s.ledc := rfl
@[simp] theorem State.finish_rst (r : ReqResult) : (s.finish r).rst = s.rst := rfl
@[simp] theorem State.finish_txLog (r : ReqResult) : (s.finish r).txLog = s.txLog := rfl
@[simp] theorem State.finish_results (r : ReqResult) : (s.finish r).results = s.results ++ [r] := rfl
@[simp] theorem State.finish_rxPending (r : ReqResult) : (s.finish r).rxPending = s.rxPending := rfl
@[simp] theorem State.finish_reqPending (r : ReqResult) : (s.finish r).reqPending = s.reqPending := rfl
@[simp] theorem State.finish_sched (r : ReqResult) : (s.finish r).sched = s.sched := rfl
@[simp] theorem State.finish_turn (r : ReqResult) : (s.finish r).turn = s.turn := rfl
@[simp] theorem State.finish_env (r : ReqResult) : (s.finish r).env = s.env := rfl

@[simp] theorem State.packetIn_cfg (e : RxEvent) : (s.packetIn e).cfg = s.cfg := rfl
@[simp] theorem State.packetIn_btn (e : RxEvent) : (s.packetIn e).btn = s.btn := rfl
@[simp] theorem State.packetIn_ledc (e : RxEvent) : (s.packetIn e).ledc = s.ledc := rfl
@[simp] theorem State.packetIn_rst (e : RxEvent) : (s.packetIn e).rst = s.rst := rfl
@[simp] theorem State.packetIn_txLog (e : RxEvent) : (s.packetIn e).txLog = s.txLog := rfl
@[simp] theorem State.packetIn_results (e : RxEvent) : (s.packetIn e).results = s.results := rfl
@[simp] theorem State.packetIn_rxPending (e : RxEvent) : (s.packetIn e).rxPending = s.rxPending ++ [e] := rfl
@[simp] theorem State.packetIn_reqPending (e : RxEvent) : (s.packetIn e).reqPending = s.reqPending := rfl
@[simp] theorem State.packetIn_sched (e : RxEvent) : (s.packetIn e).sched = s.sched := rfl
@[simp] theorem State.packetIn_turn (e : RxEvent) : (s.packetIn e).turn = s.turn := rfl
@[simp] theorem State.packetIn_env (e : RxEvent) : (s.packetIn e).env = s.env := rfl

@[simp] theorem State.requestIn_cfg (e : ReqEvent) : (s.requestIn e).cfg = s.cfg := rfl
@[simp] theorem State.requestIn_btn (e : ReqEvent) : (s.requestIn e).btn = s.btn := rfl
@[simp] theorem State.requestIn_ledc (e : ReqEvent) : (s.requestIn e).ledc = s.ledc := rfl
@[simp] theorem State.requestIn_rst (e : ReqEvent) : (s.requestIn e).rst = s.rst := rfl
@[simp] theorem State.requestIn_txLog (e : ReqEvent) : (s.requestIn e).txLog = s.txLog := rfl
@[simp] theorem State.requestIn_results (e : ReqEvent) : (s.requestIn e).results = s.results := rfl
@[simp] theorem State.requestIn_rxPending (e : ReqEvent) : (s.requestIn e).rxPending = s.rxPending := rfl
@[simp] theorem State.requestIn_reqPending (e : ReqEvent) : (s.requestIn e).reqPending = s.reqPending ++ [e] := rfl
@[simp] theorem State.requestIn_sched (e : ReqEvent) : (s.requestIn e).sched = s.sched := rfl
@[simp] theorem State.requestIn_turn (e : ReqEvent) : (s.requestIn e).turn = s.turn := rfl
@[simp] theorem State.requestIn_env (e : ReqEvent) : (s.requestIn e).env = s.env := rfl

@[simp] theorem State.takePacket_cfg (e : RxEvent) (rest : List RxEvent) : (s.takePacket e rest).cfg = s.cfg := rfl
@[simp] theorem State.takePacket_btn (e : RxEvent) (rest : List RxEvent) : (s.takePacket e rest).btn = s.btn := rfl
@[simp] theorem State.takePacket_ledc (e : RxEvent) (rest : List RxEvent) : (s.takePacket e rest).ledc = s.ledc := rfl
@[simp] theorem State.takePacket_rst (e : RxEvent) (rest : List RxEvent) : (s.takePacket e rest).rst = s.rst := rfl
@[simp] theorem State.takePacket_txLog (e : RxEvent) (rest : List RxEvent) : (s.takePacket e rest).txLog = s.txLog := rfl
@[simp] theorem State.takePacket_results (e : RxEvent) (rest : List RxEvent) : (s.takePacket e rest).results = s.results := rfl
@[simp] theorem State.takePacket_rxPending (e : RxEvent) (rest : List RxEvent) : (s.takePacket e rest).rxPending = rest := rfl
@[simp] theorem State.takePacket_reqPending (e : RxEvent) (rest : List RxEvent) : (s.takePacket e rest).reqPending = s.reqPending := rfl
@[simp] theorem State.takePacket_sched (e : RxEvent) (rest : List RxEvent) : (s.takePacket e rest).sched = s.sched.tail := rfl
@[simp] theorem State.takePacket_turn (e : RxEvent) (rest : List RxEvent) : (s.takePacket e rest).turn = s.turn + 1 := rfl
@[simp] theorem State.takePacket_env (e : RxEvent) (rest : List RxEvent) : (s.takePacket e rest).env = e.env := rfl

@[simp] theorem State.takeRequest_cfg (e : ReqEvent) (rest : List ReqEvent) : (s.takeRequest e rest).cfg = s.cfg := rfl
@[simp] theorem State.takeRequest_btn (e : ReqEvent) (rest : List ReqEvent) : (s.takeRequest e rest).btn = s.btn := rfl
@[simp] theorem State.takeRequest_ledc (e : ReqEvent) (rest : List ReqEvent) : (s.takeRequest e rest).ledc = s.ledc := rfl
@[simp] theorem State.takeRequest_rst (e : ReqEvent) (rest : List ReqEvent) : (s.takeRequest e rest).rst = s.rst := rfl
@[simp] theorem State.takeRequest_txLog (e : ReqEvent) (rest : List ReqEvent) : (s.takeRequest e rest).txLog = s.txLog := rfl
@[simp] theorem State.takeRequest_results (e : ReqEvent) (rest : List ReqEvent) : (s.takeRequest e rest).results = s.results := rfl
@[simp] theorem State.takeRequest_rxPending (e : ReqEvent) (rest : List ReqEvent) : (s.takeRequest e rest).rxPending = s.rxPending := rfl
@[simp] theorem State.takeRequest_reqPending (e : ReqEvent) (rest : List ReqEvent) : (s.takeRequest e rest).reqPending = rest := rfl
@[simp] theorem State.takeRequest_sched (e : ReqEvent) (rest : List ReqEvent) : (s.takeRequest e rest).sched = s.sched.tail := rfl
@[simp] theorem State.takeRequest_turn (e : ReqEvent) (rest : List ReqEvent) : (s.takeRequest e rest).turn = s.turn + 1 := rfl
@[simp] theorem State.takeRequest_env (e : ReqEvent) (rest : List ReqEvent) : (s.takeRequest e rest).env = e.env := rfl

@[simp] theorem State.resetOf_cfg (c : Config) : (State.resetOf c).cfg = c := rfl
@[simp] theorem State.resetOf_btn (c : Config) : (State.resetOf c).btn = c.btnInit := rfl
@[simp] theorem State.resetOf_ledc (c : Config) : (State.resetOf c).ledc = c.ledcInit := rfl
@[simp] theorem State.resetOf_rst (c : Config) : (State.resetOf c).rst = .idle := rfl
@[simp] theorem State.resetOf_txLog (c : Config) : (State.resetOf c).txLog = [] := rfl
@[simp] theorem State.resetOf_results (c : Config) : (State.resetOf c).results = [] := rfl
@[simp] theorem State.resetOf_rxPending (c : Config) : (State.resetOf c).rxPending = [] := rfl
@[simp] theorem State.resetOf_reqPending (c : Config) : (State.resetOf c).reqPending = [] := rfl
@[simp] theorem State.resetOf_sched (c : Config) : (State.resetOf c).sched = [] := rfl
@[simp] theorem State.resetOf_turn (c : Config) : (State.resetOf c).turn = 0 := rfl
@[simp] theorem State.resetOf_env (c : Config) : (State.resetOf c).env = ⟨.accepted, 0, true⟩ := rfl

end Sys2Proof.Machine
end

