-- ==== Sys2Proof/Laws/Encoder.lean ====
section
/-! SUPPORT. The LedEncoder's and the ButtonDecoder's parts, one small lemma each. -/

namespace Sys2Proof.Machine

@[simp] theorem enableForce_true (pat : Byte) : enableForce true pat = pat := rfl
@[simp] theorem enableForce_false (pat : Byte) : enableForce false pat = 0x00 := rfl
@[simp] theorem dpOverlay_true (b : Byte) : dpOverlay true b = b + 0x10 := rfl
@[simp] theorem dpOverlay_false (b : Byte) : dpOverlay false b = b := rfl

/-- A lane reads three fields of the descriptor and nothing else of it (R100 to R102). -/
theorem segByte_congr (c : Config) {d d' : Descriptor} {i : Fin 4} (hh : hexDigit d i = hexDigit d' i)
    (he : digitEnabled d i = digitEnabled d' i) (hp : digitPoint d i = digitPoint d' i) :
    segByte c d i = segByte c d' i := by
  simp only [segByte, hh, he, hp]

theorem maskByte_congr (c : Config) {d d' : Descriptor} (h : enableMask d = enableMask d') :
    maskByte c d = maskByte c d' := by
  simp only [maskByte, h]

@[simp] theorem encodeLed_b0 (c : Config) (d : Descriptor) : (encodeLed c d).b0 = c.cmdLedSet := rfl
@[simp] theorem encodeLed_b1 (c : Config) (d : Descriptor) : (encodeLed c d).b1 = maskByte c d := rfl

theorem LedBytes.toList_injective {a b : LedBytes} (h : a.toList = b.toList) : a = b := by
  cases a; cases b; simpa [LedBytes.toList] using h

@[simp] theorem LedBytes.toList_length (l : LedBytes) : l.toList.length = 6 := rfl

@[simp] theorem cacheWrite_ledc (d : Descriptor) (s : State) : (cacheWrite d s).ledc = encodeLed s.cfg d := rfl
@[simp] theorem cacheWrite_cfg (d : Descriptor) (s : State) : (cacheWrite d s).cfg = s.cfg := rfl
@[simp] theorem cacheWrite_env (d : Descriptor) (s : State) : (cacheWrite d s).env = s.env := rfl
@[simp] theorem cacheWrite_rst (d : Descriptor) (s : State) : (cacheWrite d s).rst = s.rst := rfl
@[simp] theorem cacheWrite_btn (d : Descriptor) (s : State) : (cacheWrite d s).btn = s.btn := rfl
@[simp] theorem cacheWrite_txLog (d : Descriptor) (s : State) : (cacheWrite d s).txLog = s.txLog := rfl
@[simp] theorem cacheWrite_results (d : Descriptor) (s : State) : (cacheWrite d s).results = s.results := rfl

/-- Each direction bit after the correction (R121): bits 1 and 2 come from each other, bits 0 and 3 from themselves. -/
theorem swap12_bits (dn : Nibble) :
    (swap12 dn).getLsbD 0 = dn.getLsbD 0 ∧ (swap12 dn).getLsbD 1 = dn.getLsbD 2 ∧
    (swap12 dn).getLsbD 2 = dn.getLsbD 1 ∧ (swap12 dn).getLsbD 3 = dn.getLsbD 3 := by
  revert dn; decide

end Sys2Proof.Machine
end

