-- ==== Sys2Proof/Laws/Ops.lean ====
section
/-! SUPPORT. What each shared operation can do: the wire effect of a submission, the results, the order of events. -/

namespace Sys2Proof.Machine

theorem EnvAnswer.sent_accepted (a : EnvAnswer) (bs : List Byte) (h : a.tx = .accepted) : a.sent bs = bs := by
  simp [EnvAnswer.sent, h]

/-- R45: a rejected submission leaves some first part of its bytes on the wire. -/
theorem EnvAnswer.sent_isPrefix (a : EnvAnswer) (bs : List Byte) : a.sent bs <+: bs := by
  unfold EnvAnswer.sent
  split
  · exact List.prefix_rfl
  · exact List.take_prefix _ _

@[simp] theorem EnvAnswer.submission_form (a : EnvAnswer) (f : TxForm) (bs : List Byte) :
    (a.submission f bs).form = f := rfl
@[simp] theorem EnvAnswer.submission_bytes (a : EnvAnswer) (f : TxForm) (bs : List Byte) :
    (a.submission f bs).bytes = bs := rfl
@[simp] theorem EnvAnswer.submission_outcome (a : EnvAnswer) (f : TxForm) (bs : List Byte) :
    (a.submission f bs).outcome = a.tx := rfl
@[simp] theorem EnvAnswer.submission_sent (a : EnvAnswer) (f : TxForm) (bs : List Byte) :
    (a.submission f bs).sent = a.sent bs := rfl

theorem TxOutcome.result_accepted : TxOutcome.result .accepted = .ok := rfl
theorem TxOutcome.result_rejected : TxOutcome.result .rejected = .fail .transmitFailure := rfl

theorem State.agentNext_of_sched {s : State} {a : Agent} {rest : List Agent} (h : s.sched = a :: rest) :
    s.agentNext = a := by
  simp [State.agentNext, h]

theorem State.wire_transmit (s : State) (f : TxForm) (bs : List Byte) :
    (s.transmit f bs).wire = s.wire ++ s.env.sent bs := by
  simp [State.wire]

/-- What taking an event can be: nothing pending, the oldest packet, or the oldest request. -/
theorem State.takeEvent_cases (s : State) :
    (s.takeEvent = none ∧ s.rxPending = [] ∧ s.reqPending = []) ∨
    (∃ e rest, s.rxPending = e :: rest ∧ s.takeEvent = some (.packet e.packet, s.takePacket e rest)) ∨
    (∃ e rest, s.reqPending = e :: rest ∧ s.takeEvent = some (.request e.request, s.takeRequest e rest)) := by
  unfold State.takeEvent
  split
  · exact .inl ⟨rfl, ‹_›, ‹_›⟩
  · exact .inr (.inl ⟨_, _, ‹_›, rfl⟩)
  · exact .inr (.inr ⟨_, _, ‹_›, rfl⟩)
  · split
    · exact .inr (.inl ⟨_, _, ‹_›, rfl⟩)
    · exact .inr (.inr ⟨_, _, ‹_›, rfl⟩)

theorem State.takeEvent_rx {s : State} {e : RxEvent} {rest : List RxEvent} (h : s.rxPending = e :: rest)
    (hn : s.agentNext = .rx ∨ s.reqPending = []) :
    s.takeEvent = some (.packet e.packet, s.takePacket e rest) := by
  unfold State.takeEvent
  rcases hn with hn | hn
  · cases hr : s.reqPending <;> simp [hn, h]
  · simp [hn, h]

theorem State.takeEvent_req {s : State} {e : ReqEvent} {rest : List ReqEvent} (h : s.reqPending = e :: rest)
    (hn : s.agentNext = .req ∨ s.rxPending = []) :
    s.takeEvent = some (.request e.request, s.takeRequest e rest) := by
  unfold State.takeEvent
  rcases hn with hn | hn
  · cases hr : s.rxPending <;> simp [hn, h]
  · simp [hn, h]

end Sys2Proof.Machine
end

