-- ==== Sys2Proof/Laws/Handshake.lean ====
section
/-! SUPPORT. What HS_STEP and ROUTE can do, said once (43_reset_handshake.md R140, 44_packet_router.md R160). -/

namespace Sys2Proof.Machine

/-- Every outcome of HS_STEP: the three transitions, the restart where the switch is on, or nothing (R140). -/
theorem hsStep_cases (op : Byte) (s : State) :
    (s.rst = .idle ∧ op = s.cfg.opReset ∧ hsStep op s = sendEnableEvents (s.writeRst .awaitingUserModeAck)) ∨
    (s.rst = .awaitingUserModeAck ∧ op = s.cfg.opAck ∧
      hsStep op s = sendLedUserMode (s.writeRst .awaitingLedRestoreAck)) ∨
    (s.rst = .awaitingLedRestoreAck ∧ op = s.cfg.opAck ∧ hsStep op s = sendLedRestore (s.writeRst .idle)) ∨
    (s.cfg.resetFromAnyState = true ∧ s.rst ≠ .idle ∧ op = s.cfg.opReset ∧
      hsStep op s = sendEnableEvents (s.writeRst .awaitingUserModeAck)) ∨
    hsStep op s = s := by
  unfold hsStep
  split_ifs with h1 h2 h3 h4
  · exact .inl ⟨h1.1, h1.2, rfl⟩
  · exact .inr (.inl ⟨h2.1, h2.2, rfl⟩)
  · exact .inr (.inr (.inl ⟨h3.1, h3.2, rfl⟩))
  · exact .inr (.inr (.inr (.inl ⟨h4.1, h4.2.1, h4.2.2, rfl⟩)))
  · exact .inr (.inr (.inr (.inr rfl)))

/-- HS_STEP touches `RST` and TXLOG only (R140, Writes). -/
theorem hsStep_fields (op : Byte) (s : State) :
    (hsStep op s).cfg = s.cfg ∧ (hsStep op s).btn = s.btn ∧ (hsStep op s).ledc = s.ledc ∧
    (hsStep op s).results = s.results ∧ (hsStep op s).rxPending = s.rxPending ∧
    (hsStep op s).reqPending = s.reqPending ∧ (hsStep op s).sched = s.sched ∧ (hsStep op s).turn = s.turn ∧
    (hsStep op s).env = s.env := by
  obtain ⟨-, -, h⟩ | ⟨-, -, h⟩ | ⟨-, -, h⟩ | ⟨-, -, -, h⟩ | h := hsStep_cases op s <;> rw [h] <;>
    simp [sendEnableEvents, sendLedUserMode, sendLedRestore]

@[simp] theorem hsStep_cfg (op : Byte) (s : State) : (hsStep op s).cfg = s.cfg := (hsStep_fields op s).1
@[simp] theorem hsStep_btn (op : Byte) (s : State) : (hsStep op s).btn = s.btn := (hsStep_fields op s).2.1
@[simp] theorem hsStep_ledc (op : Byte) (s : State) : (hsStep op s).ledc = s.ledc := (hsStep_fields op s).2.2.1

/-- The opcode is compared by equality only (R145): with neither value nothing happens. -/
theorem hsStep_of_ne {op : Byte} {s : State} (h1 : op ≠ s.cfg.opReset) (h2 : op ≠ s.cfg.opAck) : hsStep op s = s := by
  simp [hsStep, h1, h2]

/-- ROUTE of a packet that is no BIOC_EVENT is HS_STEP (R160, R164). -/
theorem route_of_ne {op : Byte} {s : State} (h : op ≠ s.cfg.opBiocEvent) (d1 d2 : Byte) :
    route op d1 d2 s = hsStep op s := by
  simp [route, h]

/-- The handshake holds on a BIOC_EVENT packet of a well-formed configuration, so ROUTE is the decoder alone (R162). -/
theorem route_of_bioc {s : State} (h : s.cfg.wf = true) (d1 d2 : Byte) :
    route s.cfg.opBiocEvent d1 d2 s = decodeButtons (buttonsNibble d1) (dirsNibble d2) s := by
  obtain ⟨-, h2, h3⟩ := Config.opcodes_of_wf h
  simp [route, hsStep_of_ne h2.symm h3.symm]

/-- ROUTE's effect outside `RST`, TXLOG and `BTN` is nothing (R160, Writes). -/
theorem route_fields (op d1 d2 : Byte) (s : State) :
    (route op d1 d2 s).cfg = s.cfg ∧ (route op d1 d2 s).ledc = s.ledc ∧ (route op d1 d2 s).results = s.results ∧
    (route op d1 d2 s).rxPending = s.rxPending ∧ (route op d1 d2 s).reqPending = s.reqPending ∧
    (route op d1 d2 s).sched = s.sched ∧ (route op d1 d2 s).turn = s.turn ∧ (route op d1 d2 s).env = s.env ∧
    (route op d1 d2 s).rst = (hsStep op s).rst ∧ (route op d1 d2 s).txLog = (hsStep op s).txLog := by
  obtain ⟨h1, -, h3, h4, h5, h6, h7, h8, h9⟩ := hsStep_fields op s
  unfold route
  split_ifs <;> simp [decodeButtons, h4, h5, h6, h7, h8, h9]

/-- `BTN` after ROUTE of a BIOC_EVENT (R160): the decoded word. -/
theorem route_btn_of_eq {op : Byte} {s : State} (h : op = s.cfg.opBiocEvent) (d1 d2 : Byte) :
    (route op d1 d2 s).btn = buttonWord (buttonsNibble d1) (dirsNibble d2) := by
  simp [route, h, decodeButtons]

/-- `BTN` after ROUTE of any other packet (R160): the old word. -/
theorem route_btn_of_ne {op : Byte} {s : State} (h : op ≠ s.cfg.opBiocEvent) (d1 d2 : Byte) :
    (route op d1 d2 s).btn = s.btn := by
  simp [route, h]

end Sys2Proof.Machine
end

