-- ==== Sys2Proof/Laws/Step.lean ====
section
/-! SUPPORT. What a step can be, said once: refused, waiting, one packet's ROUTE, or one request. -/

namespace Sys2Proof.Machine

/-- Decoding a packet and running it is ROUTE of its three bytes (R160, R161). -/
theorem exec_decode_packet (c : Config) (p : RawPacket) (s : State) (h : s.cfg = c) :
    exec (decode c (.packet p)) s = .next (route p.opcode p.data1 p.data2 s) := by
  subst h
  obtain ⟨h, hd⟩ | ⟨h, hd⟩ | ⟨h, hd⟩ | ⟨-, hd⟩ := decodePacket_cases s.cfg p <;>
    simp only [decode, hd, exec, execRxReset, execRxAck, execRxBiocEvent, execRxOther] <;> rw [h]

/-- A next state of a step comes about in one of three ways; the request's meaning stays named by `exec`. -/
theorem step_cases {s t : State} (h : step s = .next t) :
    s.cfg.wf = true ∧
    ((s.rxPending = [] ∧ s.reqPending = [] ∧ t = s) ∨
     (∃ e rest, s.rxPending = e :: rest ∧
        t = route e.packet.opcode e.packet.data1 e.packet.data2 (s.takePacket e rest)) ∨
     (∃ e rest, s.reqPending = e :: rest ∧
        exec (decodeRequest s.cfg e.request) (s.takeRequest e rest) = .next t)) := by
  unfold step at h
  split_ifs at h with hwf
  refine ⟨hwf, ?_⟩
  obtain ⟨hn, h1, h2⟩ | ⟨e, rest, h1, hn⟩ | ⟨e, rest, h1, hn⟩ := s.takeEvent_cases
  · simp only [hn, Host.Outcome.next.injEq] at h
    exact .inl ⟨h1, h2, h.symm⟩
  · simp only [hn] at h
    rw [exec_decode_packet s.cfg e.packet (s.takePacket e rest) rfl] at h
    exact .inr (.inl ⟨e, rest, h1, (Host.Outcome.next.inj h).symm⟩)
  · simp only [hn] at h
    exact .inr (.inr ⟨e, rest, h1, h⟩)

/-- Every next state of a request's operation, by row (45_requests.md): only SET_LED writes the cache, only INITIALIZE and
SET_LED submit, and each ends with one result. -/
theorem exec_request_cases {c : Config} {r : RawRequest} {s t : State} (h : exec (decodeRequest c r) s = .next t) :
    (∃ res, t = s.finish res) ∨ (∃ res, t = (sendInit s).finish res) ∨
    (r.code = c.reqCode.setLed ∧
      ∃ res, t = (sendLedSet (encodeLed s.cfg r.arg) (cacheWrite r.arg s)).finish res) := by
  obtain ⟨-, hd⟩ | ⟨-, hd⟩ | ⟨hc, hd⟩ | ⟨-, hd⟩ | ⟨-, hd⟩ | ⟨-, hd⟩ | ⟨-, hd⟩ := decodeRequest_cases c r <;>
    rw [hd] at h <;>
    simp only [exec, execReqInitialize, execReqGetButtons, execReqSetLed, execReqLedAck, execReqLedRequest,
      execReqReadLed, execReqUnsupported, Host.Outcome.next.injEq] at h <;> subst h
  · exact .inr (.inl ⟨_, rfl⟩)
  · exact .inl ⟨_, rfl⟩
  · exact .inr (.inr ⟨hc, _, rfl⟩)
  all_goals exact .inl ⟨_, rfl⟩

/-- The host's placed word is what the next step runs, from any state: decoded under TC1, in the state that took it. -/
theorem step_withFetchWord (s : State) (nbits w : Nat) :
    step (s.withFetchWord nbits w) =
      exec (decode .tc1 (portWordOfBits nbits w)) { s with cfg := .tc1, turn := s.turn + 1 } := by
  unfold State.withFetchWord
  cases hp : portWordOfBits nbits w with
  | packet p =>
    simp only [step, Config.tc1_wf, if_true]
    rw [State.takeEvent_rx rfl (.inl rfl)]
    rfl
  | request r =>
    simp only [step, Config.tc1_wf, if_true]
    rw [State.takeEvent_req rfl (.inl rfl)]
    rfl

end Sys2Proof.Machine
end

