-- ==== Sys2Proof/Laws/Events.lean ====
section
/-! SUPPORT. The pending events: their projections, and the one event whose operation a step runs. -/

namespace Sys2Proof.Machine

@[simp] theorem PendingEvent.asPacket_packet (e : RxEvent) : (PendingEvent.packet e).asPacket = some e := rfl
@[simp] theorem PendingEvent.asPacket_request (e : ReqEvent) : (PendingEvent.request e).asPacket = none := rfl
@[simp] theorem PendingEvent.asRequest_packet (e : RxEvent) : (PendingEvent.packet e).asRequest = none := rfl
@[simp] theorem PendingEvent.asRequest_request (e : ReqEvent) : (PendingEvent.request e).asRequest = some e := rfl

@[simp] theorem runEvents_nil (s : State) : runEvents [] s = .next s := rfl

theorem runEvents_cons_of_next {e : PendingEvent} {rest : List PendingEvent} {s t : State} (h : e.run s = .next t) :
    runEvents (e :: rest) s = runEvents rest t := by
  simp [runEvents, h]

/-- A step of a well-formed configuration waits, with nothing pending, or runs the oldest packet or the oldest request. -/
theorem step_runs_event {s : State} (h : s.cfg.wf = true) :
    (s.rxPending = [] ∧ s.reqPending = [] ∧ step s = .next s) ∨
    (∃ e rest, s.rxPending = e :: rest ∧ step s = (PendingEvent.packet e).run s) ∨
    (∃ e rest, s.reqPending = e :: rest ∧ step s = (PendingEvent.request e).run s) := by
  obtain ⟨hn, h1, h2⟩ | ⟨e, rest, h1, hn⟩ | ⟨e, rest, h1, hn⟩ := s.takeEvent_cases
  · exact .inl ⟨h1, h2, by simp [step, h, hn]⟩
  · exact .inr (.inl ⟨e, rest, h1, by simp [step, h, hn, PendingEvent.run, h1]⟩)
  · exact .inr (.inr ⟨e, rest, h1, by simp [step, h, hn, PendingEvent.run, h1]⟩)

end Sys2Proof.Machine
end

