-- ==== Sys2Proof/Laws/Log.lean ====
section
/-! SUPPORT. How the log's readings grow by one submission. -/

namespace Sys2Proof.Machine

@[simp] theorem cacheAfter_nil (c : Config) : cacheAfter c [] = c.ledcInit.toList := rfl

@[simp] theorem cacheAfter_snoc (c : Config) (log : List Submission) (sub : Submission) :
    cacheAfter c (log ++ [sub]) = if sub.form = .ledSet then sub.bytes else cacheAfter c log := by
  simp [cacheAfter]

@[simp] theorem rstAfter_nil : rstAfter [] = .idle := rfl

@[simp] theorem rstAfter_snoc (log : List Submission) (sub : Submission) :
    rstAfter (log ++ [sub]) = rstAfterSubmission (rstAfter log) sub := by
  simp [rstAfter]

theorem logExplained_nil (c : Config) : LogExplained c [] := by
  intro before sub after h
  simp at h

/-- A log stays explained when an explained submission joins it. -/
theorem logExplained_snoc {c : Config} {log : List Submission} {sub : Submission} (hl : LogExplained c log)
    (hf : FormBytes c log sub) (hw : WireEffect sub) : LogExplained c (log ++ [sub]) := by
  intro before sub' after h
  rcases List.eq_nil_or_concat after with rfl | ⟨after', last, rfl⟩
  · obtain ⟨rfl, hs⟩ := List.append_inj' h rfl
    simp only [List.cons.injEq, and_true] at hs
    exact hs ▸ ⟨hf, hw⟩
  · rw [List.concat_eq_append, ← List.cons_append, ← List.append_assoc] at h
    obtain ⟨h1, -⟩ := List.append_inj' h rfl
    exact hl _ _ _ h1

/-- Every submission the block makes has a permitted wire effect (R45). -/
theorem wireEffect_submission (a : EnvAnswer) (f : TxForm) (bs : List Byte) : WireEffect (a.submission f bs) := by
  unfold WireEffect
  simp only [EnvAnswer.submission_outcome, EnvAnswer.submission_sent, EnvAnswer.submission_bytes]
  split
  · exact a.sent_accepted bs ‹_›
  · exact a.sent_isPrefix bs

end Sys2Proof.Machine
end

