-- ==== Sys2Proof/Laws/PerInstr.lean ====
section
/-! SUPPORT. Per-instruction family Port: an input row is encoded on one of the two input ports, an output row on neither
(20_memory.md R40, 30_encoding.md R72). -/

namespace Sys2Proof.Laws.Port

/-- The row has an input word under every configuration exactly when it is an input row. -/
def Statement (i : Instr) : Prop := ∀ c : Config, (encode c i).isSome = i.isInput

theorem rxReset (d1 d2 : Byte) : Statement (.rxReset d1 d2) := fun _ => rfl
theorem rxAck (d1 d2 : Byte) : Statement (.rxAck d1 d2) := fun _ => rfl
theorem rxBiocEvent (d1 d2 : Byte) : Statement (.rxBiocEvent d1 d2) := fun _ => rfl
theorem rxOther (op d1 d2 : Byte) : Statement (.rxOther op d1 d2) := fun _ => rfl
theorem reqInitialize (arg : Descriptor) : Statement (.reqInitialize arg) := fun _ => rfl
theorem reqGetButtons (arg : Descriptor) : Statement (.reqGetButtons arg) := fun _ => rfl
theorem reqSetLed (desc : Descriptor) : Statement (.reqSetLed desc) := fun _ => rfl
theorem reqLedAck (arg : Descriptor) : Statement (.reqLedAck arg) := fun _ => rfl
theorem reqLedRequest (arg : Descriptor) : Statement (.reqLedRequest arg) := fun _ => rfl
theorem reqReadLed (arg : Descriptor) : Statement (.reqReadLed arg) := fun _ => rfl
theorem reqUnsupported (code : Nat) (arg : Descriptor) : Statement (.reqUnsupported code arg) := fun _ => rfl
theorem txEnableEvents : Statement .txEnableEvents := fun _ => rfl
theorem txLedUserMode : Statement .txLedUserMode := fun _ => rfl
theorem txLedRestore : Statement .txLedRestore := fun _ => rfl
theorem txLedSet (desc : Descriptor) : Statement (.txLedSet desc) := fun _ => rfl
theorem txInit : Statement .txInit := fun _ => rfl

end Sys2Proof.Laws.Port
end

