-- ==== Sys2Proof/Tests/Slice0.lean ====
section
/-! SUPPORT. The model's own tests.  Expected results come from the worked vectors of 95_test_vectors.md (TC1) and from the
rules' own examples; then one witness per statement that has hypotheses. -/

namespace Sys2Proof.Tests

open Sys2Proof.Machine

/-! ### Helpers -/

/-- A small TC1 state: handshake state, environment's answers; `LEDC` as §2.3 of the vectors has it, `BTN` as §2.5. -/
def st (r : ResetState) (a : EnvAnswer := ⟨.accepted, 0, true⟩) : State :=
  { State.resetOf .tc1 with rst := r, env := a, btn := 0x6F, ledc := ⟨0x46, 0x0F, 0x2E, 0x8F, 0xCB, 0x06⟩ }

def rejecting : EnvAnswer := ⟨.rejected, 2, true⟩
def faulting : EnvAnswer := ⟨.accepted, 0, false⟩

/-- TC1 with the restart switch on. -/
def switchOn : Config := { Config.tc1 with resetFromAnyState := true }

/-- TC1 in mask mode AllFour. -/
def allFour : Config := { Config.tc1 with maskMode := .allFour }

/-- The next state, where there is one. -/
def nextOf : Host.Outcome State Fault Refusal → Option State
  | .next t => some t
  | .fault _ => none
  | .refused _ => none

/-- A next state that a computation finds, with what the computation shows of it. -/
theorem next_of_any {o : Host.Outcome State Fault Refusal} {p : State → Bool} (h : (nextOf o).any p = true) :
    ∃ t, o = .next t ∧ p t = true := by
  cases o with
  | next t => exact ⟨t, rfl, h⟩
  | fault r => cases h
  | refused r => cases h

theorem next_of_isSome {o : Host.Outcome State Fault Refusal} (h : (nextOf o).isSome = true) : ∃ t, o = .next t := by
  cases o with
  | next t => exact ⟨t, rfl⟩
  | fault r => cases h
  | refused r => cases h

/-- What the vectors show of a step: `RST`, `BTN`, the bytes on TX. -/
def seen (o : Host.Outcome State Fault Refusal) : Option (ResetState × Byte × List (List Byte)) :=
  (nextOf o).map fun t => (t.rst, t.btn, t.txLog.map Submission.bytes)

/-- What the vectors show of a request: the result codes, the cache, the bytes on TX. -/
def answered (o : Host.Outcome State Fault Refusal) : Option (List ReqResult × List Byte × List (List Byte)) :=
  (nextOf o).map fun t => (t.results, t.ledc.toList, t.txLog.map Submission.bytes)

/-! ### Well-formedness: what each check refuses -/

theorem test_wf_refuses_reset_ack_collision : ({ Config.tc1 with opAck := 0x46 } : Config).wf = false := by decide
theorem test_wf_refuses_reset_bioc_collision : ({ Config.tc1 with opBiocEvent := 0x46 } : Config).wf = false := by decide
theorem test_wf_refuses_ack_bioc_collision : ({ Config.tc1 with opBiocEvent := 0x40 } : Config).wf = false := by decide
theorem test_wf_refuses_equal_request_codes :
    ({ Config.tc1 with reqCode := ⟨0, 1, 2, 3, 4, 0⟩ } : Config).wf = false := by decide
theorem test_wf_refuses_known_opcode_as_other : (Instr.rxOther 0x40 0 0).wf .tc1 = false := by decide
theorem test_wf_refuses_known_code_as_unsupported : (Instr.reqUnsupported 5 0).wf .tc1 = false := by decide
theorem test_bytes_refuse_short_packet : decodeBytes .tc1 [0x46, 0x00] = .error (.notThreeBytes 2) := by decide
theorem test_bytes_refuse_configuration :
    decodeBytes { Config.tc1 with opAck := 0x46 } [0x46, 0x00, 0x00] = .error .illFormedConfiguration := by decide

/-! ### Decoding: words written out from R60, R69 under TC1 -/

theorem test_decode_rxReset : decode .tc1 (.packet ⟨0b01000110, 0x00, 0x00⟩) = .rxReset 0 0 := by decide
theorem test_decode_rxAck : decode .tc1 (.packet ⟨0b01000000, 0x12, 0x34⟩) = .rxAck 0x12 0x34 := by decide
theorem test_decode_rxBiocEvent : decode .tc1 (.packet ⟨0b01000001, 0b11111110, 0b11111111⟩) = .rxBiocEvent 0xFE 0xFF := by
  decide
theorem test_decode_rxOther : decode .tc1 (.packet ⟨0b01000111, 0x12, 0x34⟩) = .rxOther 0x47 0x12 0x34 := by decide
theorem test_decode_reqInitialize : decode .tc1 (.request ⟨0, 7⟩) = .reqInitialize 7 := by decide
theorem test_decode_reqGetButtons : decode .tc1 (.request ⟨1, 7⟩) = .reqGetButtons 7 := by decide
theorem test_decode_reqSetLed : decode .tc1 (.request ⟨2, 0x0405ABCD⟩) = .reqSetLed 0x0405ABCD := by decide
theorem test_decode_reqLedAck : decode .tc1 (.request ⟨3, 7⟩) = .reqLedAck 7 := by decide
theorem test_decode_reqLedRequest : decode .tc1 (.request ⟨4, 7⟩) = .reqLedRequest 7 := by decide
theorem test_decode_reqReadLed : decode .tc1 (.request ⟨5, 7⟩) = .reqReadLed 7 := by decide
theorem test_decode_reqUnsupported : decode .tc1 (.request ⟨6, 7⟩) = .reqUnsupported 6 7 := by decide
theorem test_tableWord_packet : decodeTableWord 24 0x341247 = some (.rxOther 0x47 0x12 0x34) := by decide
theorem test_tableWord_request : decodeTableWord 64 0x0405ABCD00000002 = some (.reqSetLed 0x0405ABCD) := by decide
theorem test_fetchWord_packet : (nextOf (step (State.reset.withFetchWord 24 0x46))).map State.rst = some .awaitingUserModeAck := by
  decide
theorem test_fetchWord_request : (nextOf (step (State.reset.withFetchWord 64 0x06))).map State.results =
    some [.fail .unsupportedRequest] := by decide

/-- The output rows' bytes (R67, `tc1_value` of the table). -/
theorem test_tx_rows : txBytes .tc1 (st .idle).ledc .txEnableEvents = some [0x43] ∧
    txBytes .tc1 (st .idle).ledc .txLedUserMode = some [0x48] ∧
    txBytes .tc1 (st .idle).ledc .txLedRestore = some [0x46, 0x0F, 0x2E, 0x8F, 0xCB, 0x06] ∧
    txBytes .tc1 (st .idle).ledc (.txLedSet 0x0405ABCD) = some [0x46, 0x05, 0x4F, 0x00, 0x7D, 0x00] ∧
    txBytes .tc1 (st .idle).ledc .txInit = some [0x43, 0x48] := by decide

/-! ### LedEncoder: E1 to E15 -/

theorem test_encode_E1 : (encodeLed .tc1 0x000F1234).toList = [0x46, 0x0F, 0x2E, 0x8F, 0xCB, 0x06] := by decide
theorem test_encode_E2 : (encodeLed .tc1 0x0405ABCD).toList = [0x46, 0x05, 0x4F, 0x00, 0x7D, 0x00] := by decide
theorem test_encode_E3_allFour : (encodeLed allFour 0x08000000).toList = [0x46, 0x0F, 0x00, 0x00, 0x00, 0x10] := by decide
theorem test_encode_E9 : (encodeLed .tc1 0xFFFFFFFF).toList = [0x46, 0x0F, 0xF8, 0xF8, 0xF8, 0xF8] := by decide
theorem test_encode_E11 : (encodeLed .tc1 0x01005678).toList = [0x46, 0x00, 0x10, 0x00, 0x00, 0x00] := by decide
theorem test_encode_E14 : (encodeLed .tc1 0x0A0A0000).toList = [0x46, 0x0A, 0x00, 0xF7, 0x00, 0xF7] := by decide
theorem test_encode_E15 : encodeLed .tc1 0xF0FF1234 = encodeLed .tc1 0x000F1234 := by decide
/-- §2.1's corner case: entries 0xF0 and 0x18, where adding is not or-ing. -/
theorem test_encode_addition : dpOverlay true 0xF0 = 0x00 ∧ dpOverlay true 0x18 = 0x28 := by decide

/-! ### ButtonDecoder: K1 to K16 -/

theorem test_buttons_K1 : buttonWord 0x0 0x0 = 0xFF := by decide
theorem test_buttons_K8 : buttonWord 0xF 0xD = 0x40 := by decide
theorem test_buttons_K9 : buttonWord 0xF 0xB = 0x20 := by decide
theorem test_buttons_K12 : buttonWord 0xA 0x5 = 0xC5 := by decide
theorem test_buttons_K16 : buttonWord 0xF 0x3 = 0xA0 := by decide
theorem test_flags_K8 : pressed 0x40 .left = true ∧ pressed 0x40 .down = false ∧ pressed 0x01 .start = true := by decide

/-! ### RX rows: H1 to H17 -/

theorem test_rxReset_H1 : seen (exec (.rxReset 0xFF 0xAB) (st .idle)) = some (.awaitingUserModeAck, 0x6F, [[0x43]]) := by
  decide
theorem test_rxReset_H9_H14 :
    seen (exec (.rxReset 0 0) (st .awaitingLedRestoreAck)) = some (.awaitingLedRestoreAck, 0x6F, []) ∧
    seen (exec (.rxReset 0 0) { st .awaitingLedRestoreAck with cfg := switchOn }) =
      some (.awaitingUserModeAck, 0x6F, [[0x43]]) := by decide
theorem test_rxAck_H6_H17 :
    seen (exec (.rxAck 0x12 0x34) (st .awaitingUserModeAck)) = some (.awaitingLedRestoreAck, 0x6F, [[0x48]]) ∧
    (nextOf (exec (.rxAck 0 0) (st .awaitingUserModeAck rejecting))).map (fun t => (t.rst, t.txLog)) =
      some (.awaitingLedRestoreAck, [⟨.ledUserMode, [0x48], .rejected, [0x48]⟩]) := by decide
theorem test_rxAck_H10_H2 :
    seen (exec (.rxAck 0 0) (st .awaitingLedRestoreAck)) = some (.idle, 0x6F, [[0x46, 0x0F, 0x2E, 0x8F, 0xCB, 0x06]]) ∧
    seen (exec (.rxAck 0 0) (st .idle)) = some (.idle, 0x6F, []) := by decide
theorem test_rxBiocEvent_H3_H7 :
    seen (exec (.rxBiocEvent 0xFE 0xFF) (st .idle)) = some (.idle, 0x01, []) ∧
    seen (exec (.rxBiocEvent 0xF0 0xF0) (st .awaitingUserModeAck)) = some (.awaitingUserModeAck, 0xFF, []) := by decide
/-- §2.2, packet level: the upper nibbles are ignored. -/
theorem test_rxBiocEvent_high_nibbles : seen (exec (.rxBiocEvent 0x0E 0x3F) (st .idle)) = some (.idle, 0x01, []) := by decide
theorem test_rxOther_H8 :
    seen (exec (.rxOther 0x47 0x12 0x34) (st .awaitingUserModeAck)) = some (.awaitingUserModeAck, 0x6F, []) := by decide

/-! ### REQ rows: Q1 to Q11 -/

theorem test_reqInitialize_Q1_Q2 :
    answered (exec (.reqInitialize 0) (st .idle)) =
      some ([.ok], [0x46, 0x0F, 0x2E, 0x8F, 0xCB, 0x06], [[0x43, 0x48]]) ∧
    answered (exec (.reqInitialize 0) (st .idle rejecting)) =
      some ([.fail .transmitFailure], [0x46, 0x0F, 0x2E, 0x8F, 0xCB, 0x06], [[0x43, 0x48]]) := by decide
theorem test_reqGetButtons_Q3_Q4 :
    answered (exec (.reqGetButtons 0) (st .idle)) = some ([.okValue 0x6F], [0x46, 0x0F, 0x2E, 0x8F, 0xCB, 0x06], []) ∧
    answered (exec (.reqGetButtons 0) (st .idle faulting)) =
      some ([.fail .copyFailure], [0x46, 0x0F, 0x2E, 0x8F, 0xCB, 0x06], []) := by decide
/-- Q5, Q6, and R45: two bytes of the rejected command reach the wire when the environment says so. -/
theorem test_reqSetLed_Q6 :
    answered (exec (.reqSetLed 0x0405ABCD) (st .idle rejecting)) =
      some ([.fail .transmitFailure], [0x46, 0x05, 0x4F, 0x00, 0x7D, 0x00], [[0x46, 0x05, 0x4F, 0x00, 0x7D, 0x00]]) ∧
    (nextOf (exec (.reqSetLed 0x0405ABCD) (st .idle rejecting))).map State.wire = some [0x46, 0x05] := by decide
theorem test_reqLedAck_Q7 : answered (exec (.reqLedAck 9) (st .awaitingUserModeAck)) =
    some ([.ok], [0x46, 0x0F, 0x2E, 0x8F, 0xCB, 0x06], []) := by decide
theorem test_reqLedRequest_Q8 : answered (exec (.reqLedRequest 9) (st .idle)) =
    some ([.ok], [0x46, 0x0F, 0x2E, 0x8F, 0xCB, 0x06], []) := by decide
theorem test_reqReadLed_Q9 : answered (exec (.reqReadLed 9) (st .idle faulting)) =
    some ([.ok], [0x46, 0x0F, 0x2E, 0x8F, 0xCB, 0x06], []) := by decide
theorem test_reqUnsupported_Q10 : answered (exec (.reqUnsupported 6 9) (st .idle)) =
    some ([.fail .unsupportedRequest], [0x46, 0x0F, 0x2E, 0x8F, 0xCB, 0x06], []) := by decide

/-! ### TX rows and the step -/

theorem test_txLedSet : seen (exec (.txLedSet 0x0405ABCD) (st .idle)) =
    some (.idle, 0x6F, [[0x46, 0x05, 0x4F, 0x00, 0x7D, 0x00]]) := by decide
theorem test_txLedRestore : seen (exec .txLedRestore (st .idle)) =
    some (.idle, 0x6F, [[0x46, 0x0F, 0x2E, 0x8F, 0xCB, 0x06]]) := by decide

/-- One pending packet (an ACK) and one pending request (a SET_LED), as §2.6 has them. -/
def contended (first : Agent) : State :=
  { st .awaitingLedRestoreAck with
    rxPending := [⟨⟨0x40, 0, 0⟩, ⟨.accepted, 0, true⟩⟩]
    reqPending := [⟨⟨2, 0x000F1234⟩, ⟨.accepted, 0, true⟩⟩]
    sched := [first] }

theorem test_step_packet_first : (nextOf (step (contended .rx))).map (fun t => (t.rst, t.rxPending, t.reqPending.length)) =
    some (.idle, [], 1) := by decide
theorem test_step_request_first :
    (nextOf (step (contended .req))).map (fun t => (t.rst, t.rxPending.length, t.reqPending, t.results)) =
    some (.awaitingLedRestoreAck, 1, [], [.ok]) := by decide
theorem test_step_refuses_configuration :
    nextOf (step { st .idle with cfg := { Config.tc1 with opAck := 0x46 } }) = none := by decide

/-! ### Witnesses: the hypotheses of each statement are met together, clause by clause -/

theorem witness_CollidingOpcodesAreRefused :
    (let s := { st .idle with cfg := { Config.tc1 with opAck := 0x46 } }; s.cfg.opReset = s.cfg.opAck) ∧
    (let s := { st .idle with cfg := { Config.tc1 with opBiocEvent := 0x46 } }; s.cfg.opReset = s.cfg.opBiocEvent) ∧
    (let s := { st .idle with cfg := { Config.tc1 with opBiocEvent := 0x40 } }; s.cfg.opAck = s.cfg.opBiocEvent) := by decide

theorem witness_PacketClassByWholeOpcode :
    Config.tc1.wf = true ∧ (0x46 : Byte) = Config.tc1.opReset ∧ (0x40 : Byte) = Config.tc1.opAck ∧
    (0x41 : Byte) = Config.tc1.opBiocEvent ∧
    (∀ op ∈ [(0x00 : Byte), 0x3F, 0x42, 0x47, 0xFF],
      op ≠ Config.tc1.opReset ∧ op ≠ Config.tc1.opAck ∧ op ≠ Config.tc1.opBiocEvent) := by decide

theorem unsupported_six : ∀ k : ReqKind, (6 : Nat) ≠ Config.tc1.reqCode.code k := by
  intro k; cases k <;> decide

theorem witness_RequestKindByCode : Config.tc1.wf = true ∧ ∀ k : ReqKind, (6 : Nat) ≠ Config.tc1.reqCode.code k :=
  ⟨by decide, unsupported_six⟩

theorem witness_DecodeOfEncode :
    (Config.tc1.wf = true ∧ (Instr.rxOther 0x47 1 2).wf .tc1 = true ∧
      encode .tc1 (.rxOther 0x47 1 2) = some (.packet ⟨0x47, 1, 2⟩)) ∧
    (Config.tc1.wf = true ∧ (Instr.reqUnsupported 6 2).wf .tc1 = true ∧
      encode .tc1 (.reqUnsupported 6 2) = some (.request ⟨6, 2⟩)) := by decide

theorem witness_PacketIsThreeBytes :
    ({ Config.tc1 with opAck := 0x46 } : Config).wf = false ∧
    (Config.tc1.wf = true ∧ ([1, 2] : List Byte).length ≠ 3 ∧ ([1, 2, 3, 4] : List Byte).length ≠ 3) ∧
    (Config.tc1.wf = true ∧ ([0x46, 2, 3] : List Byte) = [0x46, 2, 3]) := by decide

theorem witness_BiocEventReadsLowNibbles :
    (0x0E : Byte) ≠ 0xFE ∧ (0x0E : Byte).toNat % 16 = (0xFE : Byte).toNat % 16 ∧
    (0x3F : Byte).toNat % 16 = (0xFF : Byte).toNat % 16 := by decide

/-- The four cases of a lane at digits 0 and 3, and both mask modes. -/
theorem witness_EncodedBytesByBits :
    (let d : Descriptor := 0x080A000F
     ((15 : Fin 16).val = d.toNat / 2 ^ (4 * (0 : Fin 4).val) % 16 ∧ d.getLsbD 16 = false ∧ d.getLsbD 24 = false) ∧
     ((0 : Fin 16).val = d.toNat / 2 ^ (4 * (3 : Fin 4).val) % 16 ∧ d.getLsbD 19 = true ∧ d.getLsbD 27 = true)) ∧
    (let d : Descriptor := 0x0108F000
     ((0 : Fin 16).val = d.toNat / 2 ^ (4 * (0 : Fin 4).val) % 16 ∧ d.getLsbD 16 = false ∧ d.getLsbD 24 = true) ∧
     ((15 : Fin 16).val = d.toNat / 2 ^ (4 * (3 : Fin 4).val) % 16 ∧ d.getLsbD 19 = true ∧ d.getLsbD 27 = false)) ∧
    Config.tc1.maskMode = .fromDescriptor ∧ allFour.maskMode = .allFour := by decide

theorem witness_LanesAreIndependent :
    (let d : Descriptor := 0x0E0E1234; let d' : Descriptor := 0x00005674
     (∀ j < 4, d.getLsbD (4 * (0 : Fin 4).val + j) = d'.getLsbD (4 * (0 : Fin 4).val + j)) ∧
     d.getLsbD (16 + (0 : Fin 4).val) = d'.getLsbD (16 + (0 : Fin 4).val) ∧
     d.getLsbD (24 + (0 : Fin 4).val) = d'.getLsbD (24 + (0 : Fin 4).val) ∧ d ≠ d') ∧
    (0x070F1234 : Descriptor).getLsbD (24 + (3 : Fin 4).val) = false := by decide

theorem witness_ReservedDescriptorBitsIgnored :
    (0xF0FF1234 : Descriptor) ≠ 0x000F1234 ∧
    (0xF0FF1234 : Descriptor) &&& 0x0F0FFFFF = (0x000F1234 : Descriptor) &&& 0x0F0FFFFF := by decide

theorem tc1_segDpClear : Config.tc1.segDpClear := by
  unfold Config.segDpClear; decide

theorem witness_PointIsOrWhereBitFourClear :
    Config.tc1.segDpClear ∧ (0x070F1234 : Descriptor).getLsbD (24 + (3 : Fin 4).val) = false :=
  ⟨tc1_segDpClear, by decide⟩

theorem witness_WiringCorrection :
    (0b0010 : Nibble).getLsbD 1 ≠ (0b0010 : Nibble).getLsbD 2 ∧
    (0b0110 : Nibble).getLsbD 1 = (0b0110 : Nibble).getLsbD 2 ∧
    (0b1001 : Nibble).getLsbD 1 = (0b1001 : Nibble).getLsbD 2 := by decide

theorem witness_ResetFromIdle : (st .idle).cfg.wf = true ∧ (st .idle).rst = .idle := by decide
theorem witness_FirstAck :
    (st .awaitingUserModeAck).cfg.wf = true ∧ (st .awaitingUserModeAck).rst = .awaitingUserModeAck := by decide
theorem witness_SecondAckRestoresCache :
    (st .awaitingLedRestoreAck).cfg.wf = true ∧ (st .awaitingLedRestoreAck).rst = .awaitingLedRestoreAck := by decide

theorem witness_UnexpectedPacketsHeld :
    (let s := st .idle; s.cfg.wf = true ∧ s.rst = .idle) ∧
    (let s := st .awaitingLedRestoreAck; s.cfg.wf = true ∧ s.rst ≠ .idle ∧ s.cfg.resetFromAnyState = false) ∧
    (let s := { st .awaitingUserModeAck with cfg := switchOn }
     s.cfg.wf = true ∧ s.rst ≠ .idle ∧ s.cfg.resetFromAnyState = true) := by decide

theorem witness_OnlyAckAcknowledges :
    (let s := st .awaitingUserModeAck; (0x41 : Byte) ≠ s.cfg.opReset ∧ (0x41 : Byte) ≠ s.cfg.opAck) ∧
    (let s := st .awaitingLedRestoreAck; (0x46 : Byte) ≠ s.cfg.opAck ∧ s.rst ≠ .idle) := by decide

theorem witness_BiocEventStoresButtons : (st .awaitingUserModeAck).cfg.wf = true := by decide

theorem witness_OtherOpcodeIgnored :
    (0x47 : Byte) ≠ (st .idle).cfg.opReset ∧ (0x47 : Byte) ≠ (st .idle).cfg.opAck ∧
    (0x47 : Byte) ≠ (st .idle).cfg.opBiocEvent := by decide

theorem witness_RouteByClass : (st .idle).cfg.wf = true ∧ (st .idle).cfg.resetFromAnyState = false := by decide
theorem witness_HandshakeIgnoresOutcome : (Instr.rxAck 0 0).isPacket = true := by decide
theorem witness_FullHandshake : (st .idle).cfg.wf = true ∧ (st .idle).rst = .idle := by decide
theorem witness_SetLedMidHandshakeIsRestored :
    ((st .awaitingUserModeAck).cfg.wf = true ∧ (st .awaitingUserModeAck).rst ≠ .idle) ∧
    ((st .awaitingLedRestoreAck).cfg.wf = true ∧ (st .awaitingLedRestoreAck).rst ≠ .idle) := by decide

theorem witness_UnsupportedRequestFails : ∀ k : ReqKind, (6 : Nat) ≠ (st .idle).cfg.reqCode.code k := unsupported_six

theorem witness_FailuresExactlyWhen :
    ((Instr.reqInitialize 0).isRequest = true ∧ (st .idle rejecting).env.tx = .rejected ∧
      ∃ t, exec (.reqInitialize 0) (st .idle rejecting) = .next t) ∧
    ((Instr.reqGetButtons 0).isRequest = true ∧ (st .idle faulting).env.destWritable = false ∧
      ∃ t, exec (.reqGetButtons 0) (st .idle faulting) = .next t) ∧
    ((Instr.rxAck 0 0).isPacket = true ∧ ∃ t, exec (.rxAck 0 0) (st .awaitingUserModeAck rejecting) = .next t) :=
  ⟨⟨rfl, rfl, _, rfl⟩, ⟨rfl, rfl, _, rfl⟩, rfl, _, rfl⟩

theorem witness_UnsupportedExactlyWhen :
    (∃ t, exec (decode (st .idle).cfg (.request ⟨6, 0⟩)) (st .idle) = .next t) ∧
    (∀ k : ReqKind, (6 : Nat) ≠ (st .idle).cfg.reqCode.code k) ∧
    ∃ t, exec (decode (st .idle).cfg (.request ⟨5, 0⟩)) (st .idle) = .next t :=
  ⟨⟨_, rfl⟩, unsupported_six, _, rfl⟩

theorem witness_SetLedIsIdempotent :
    (∀ i ∈ [Instr.rxAck 0 0, .reqGetButtons 0], ∀ d, i ≠ .reqSetLed d) ∧
    ∃ t u v, exec (.reqSetLed 0x0405ABCD) (st .awaitingUserModeAck rejecting) = .next t ∧
      execAll [.rxAck 0 0, .reqGetButtons 0] t = .next u ∧ exec (.reqSetLed 0x0405ABCD) u = .next v :=
  ⟨by simp, _, _, _, rfl, rfl, rfl⟩

theorem witness_ButtonsAreLevel :
    (st .idle).cfg.wf = true ∧
    (∀ i ∈ [Instr.reqGetButtons 0, .rxOther 0x47 0 0], i.wf (st .idle).cfg = true ∧ ∀ d1 d2, i ≠ .rxBiocEvent d1 d2) ∧
    ∃ u, execAll [.reqGetButtons 0, .rxOther 0x47 0 0] (st .idle) = .next u :=
  ⟨by decide, by simp [Instr.wf, Config.isOtherOpcode, st, Config.tc1], _, rfl⟩

theorem witness_RequestsCannotSeeResetState :
    (Instr.reqInitialize 0).isRequest = true ∧ ∃ t, exec (.reqInitialize 0) (st .awaitingUserModeAck) = .next t :=
  ⟨rfl, _, rfl⟩

theorem witness_InputRowsSubmitByTxRows :
    ((st .idle).cfg.wf = true ∧ (st .idle).rst = .idle) ∧
    ((st .awaitingUserModeAck).cfg.wf = true ∧ (st .awaitingUserModeAck).rst = .awaitingUserModeAck) ∧
    ((st .awaitingLedRestoreAck).cfg.wf = true ∧ (st .awaitingLedRestoreAck).rst = .awaitingLedRestoreAck) := by decide

theorem witness_PacketFrame :
    ((Instr.rxAck 0 0).isPacket = true ∧ (st .awaitingLedRestoreAck).cfg.wf = true ∧
      (Instr.rxAck 0 0).wf (st .awaitingLedRestoreAck).cfg = true ∧ (∀ d1 d2, Instr.rxAck 0 0 ≠ .rxBiocEvent d1 d2) ∧
      ∃ t, exec (.rxAck 0 0) (st .awaitingLedRestoreAck) = .next t) ∧
    ((Instr.rxBiocEvent 1 2).isPacket = true ∧ (st .idle).cfg.wf = true ∧
      (∃ d1 d2, Instr.rxBiocEvent 1 2 = .rxBiocEvent d1 d2) ∧ ∃ t, exec (.rxBiocEvent 1 2) (st .idle) = .next t) :=
  ⟨⟨rfl, by decide, rfl, by simp, _, rfl⟩, rfl, by decide, ⟨_, _, rfl⟩, _, rfl⟩

theorem witness_RequestFrame :
    (Instr.reqGetButtons 0).isRequest = true ∧ (∃ t, exec (.reqGetButtons 0) (st .idle) = .next t) ∧
    (∀ d, Instr.reqGetButtons 0 ≠ .reqSetLed d) ∧ (∀ a, Instr.reqGetButtons 0 ≠ .reqInitialize a) ∧
    ∃ t, exec (.reqSetLed 5) (st .idle) = .next t :=
  ⟨rfl, ⟨_, rfl⟩, by simp, by simp, _, rfl⟩

/-- Both agents' clauses, each by its turn in the schedule with both pending and by being alone. -/
theorem witness_StepRunsDecodedEvent :
    ((contended .rx).cfg.wf = true ∧ (∃ e rest, (contended .rx).rxPending = e :: rest) ∧
      (contended .rx).agentNext = .rx ∧ (contended .rx).reqPending ≠ []) ∧
    (let s := { contended .req with reqPending := [] }
     s.cfg.wf = true ∧ (∃ e rest, s.rxPending = e :: rest) ∧ s.reqPending = []) ∧
    ((contended .req).cfg.wf = true ∧ (∃ e rest, (contended .req).reqPending = e :: rest) ∧
      (contended .req).agentNext = .req ∧ (contended .req).rxPending ≠ []) ∧
    (let s := { contended .rx with rxPending := [] }
     s.cfg.wf = true ∧ (∃ e rest, s.reqPending = e :: rest) ∧ s.rxPending = []) :=
  ⟨⟨by decide, ⟨_, _, rfl⟩, rfl, by decide⟩, ⟨by decide, ⟨_, _, rfl⟩, rfl⟩,
    ⟨by decide, ⟨_, _, rfl⟩, rfl, by decide⟩, by decide, ⟨_, _, rfl⟩, rfl⟩

/-- The free turn: with both pending and the schedule used up, one of the two clauses applies, whichever the free value. -/
theorem witness_StepRunsDecodedEvent_freeTurn :
    let s := { contended .rx with sched := [] }
    s.cfg.wf = true ∧ (∃ e rest, s.rxPending = e :: rest) ∧ (∃ e rest, s.reqPending = e :: rest) ∧
    (s.agentNext = .rx ∨ s.agentNext = .req) := by
  refine ⟨by decide, ⟨_, _, rfl⟩, ⟨_, _, rfl⟩, ?_⟩
  cases State.agentNext _ <;> simp

theorem witness_StepWaitsWithoutEvents :
    (st .awaitingUserModeAck).cfg.wf = true ∧ (st .awaitingUserModeAck).rxPending = [] ∧
    (st .awaitingUserModeAck).reqPending = [] := by decide

theorem witness_EveryOperationCompletes : (contended .rx).cfg.wf = true := by decide

theorem witness_EitherAgentMayGoFirst :
    (contended .rx).cfg.wf = true ∧ (∃ p ps, (contended .rx).rxPending = p :: ps) ∧
    (∃ q qs, (contended .rx).reqPending = q :: qs) ∧ ∃ t, step (contended .rx) = .next t :=
  ⟨by decide, ⟨_, _, rfl⟩, ⟨_, _, rfl⟩, _, rfl⟩

theorem witness_EventsTakenInOrder :
    step (st .idle) = .next (st .idle) ∧ (∃ t, step (contended .rx) = .next t) ∧ ∃ t, step (contended .req) = .next t :=
  ⟨rfl, ⟨_, rfl⟩, _, rfl⟩

theorem witness_ConfigurationIsFixed : ∃ t, Sys2Proof.core.run 2 (contended .req) = .next t :=
  next_of_isSome (by decide)

theorem witness_ResetStateChangesOnlyByHandshake :
    ∃ t, step (contended .rx) = .next t ∧ t.rst ≠ (contended .rx).rst := ⟨_, rfl, by decide⟩

theorem witness_ButtonsChangeOnlyByBiocEvent :
    let s := { st .idle with rxPending := [⟨⟨0x41, 0xF0, 0xF0⟩, rejecting⟩] }
    ∃ t, step s = .next t ∧ t.btn ≠ s.btn := by
  intro s
  obtain ⟨t, ht, h⟩ := next_of_any (o := step s) (p := fun t => decide (t.btn ≠ s.btn)) (by decide)
  exact ⟨t, ht, of_decide_eq_true h⟩

theorem witness_CacheChangesOnlyBySetLed :
    let s := { st .idle with reqPending := [⟨⟨2, 0x0405ABCD⟩, rejecting⟩] }
    ∃ t, step s = .next t ∧ t.ledc ≠ s.ledc := by
  intro s
  obtain ⟨t, ht, h⟩ := next_of_any (o := step s) (p := fun t => decide (t.ledc ≠ s.ledc)) (by decide)
  exact ⟨t, ht, of_decide_eq_true h⟩

/-- A packet (an ACK in a waiting state, an OTHER) and a request for the clauses of the statement. -/
theorem witness_DisjointOperationsCommute :
    let s := st .awaitingLedRestoreAck
    s.cfg.wf = true ∧
    ((Instr.rxAck 0 0).wf s.cfg = true ∧ (∀ d1 d2, Instr.rxAck 0 0 ≠ .rxBiocEvent d1 d2) ∧
      (Instr.rxAck 0 0).isInput = true ∧ (∀ arg, Instr.rxAck 0 0 ≠ .reqGetButtons arg) ∧
      (Instr.rxAck 0 0).isPacket = true) ∧
    ((Instr.rxOther 0x47 0 0).wf s.cfg = true ∧ (∀ d1 d2, Instr.rxOther 0x47 0 0 ≠ .rxBiocEvent d1 d2) ∧
      (Instr.rxOther 0x47 0 0).isPacket = true) ∧
    (Instr.reqSetLed 0x0405ABCD).wf s.cfg = true ∧ (∀ d1 d2, Instr.reqSetLed 0x0405ABCD ≠ .rxBiocEvent d1 d2) ∧
    (Instr.reqSetLed 0x0405ABCD).isRequest = true :=
  ⟨by decide, ⟨rfl, by simp, rfl, by simp, rfl⟩, ⟨rfl, by simp, rfl⟩, rfl, by simp, rfl⟩

theorem witness_GoodAtReset : Config.tc1.wf = true := by decide

/-- A good state with a SET_LED pending, and a step from it. -/
theorem witness_StepKeepsGood :
    let s := { State.resetOf .tc1 with reqPending := [⟨⟨2, 0x0405ABCD⟩, rejecting⟩] }
    Inv s ∧ ∃ t, step s = .next t :=
  ⟨⟨by decide, rfl, rfl, logExplained_nil _⟩, next_of_isSome (by decide)⟩

/-- A good state whose log holds a led-set and, after it, an enable-events. -/
theorem witness_LastLedBytesAreCached :
    let led : Submission := ⟨.ledSet, (encodeLed .tc1 0x0405ABCD).toList, .accepted, (encodeLed .tc1 0x0405ABCD).toList⟩
    let on : Submission := ⟨.enableEvents, [0x43], .rejected, []⟩
    let s := { State.resetOf .tc1 with
      ledc := encodeLed .tc1 0x0405ABCD, rst := .awaitingUserModeAck, txLog := [led, on] }
    Inv s ∧ s.txLog = [] ++ led :: [on] ∧ (led.form = .ledSet ∨ led.form = .ledRestore) ∧
    ∀ x ∈ [on], x.form ≠ .ledSet ∧ x.form ≠ .ledRestore := by
  refine ⟨⟨by decide, rfl, rfl, ?_⟩, rfl, .inl rfl, by simp⟩
  exact logExplained_snoc (log := [_])
    (logExplained_snoc (log := []) (logExplained_nil _) ⟨_, rfl⟩ rfl) rfl (List.nil_prefix)

theorem witness_RunKeepsButtonsAndCache :
    (∃ t, Sys2Proof.core.run 1 (contended .rx) = .next t) ∧
    (∀ e ∈ (contended .rx).rxPending, e.packet.opcode ≠ (contended .rx).cfg.opBiocEvent) ∧
    (let s := { contended .rx with reqPending := [⟨⟨1, 0⟩, rejecting⟩] }
     (∃ t, Sys2Proof.core.run 2 s = .next t) ∧
      ∀ e ∈ s.reqPending, e.request.code ≠ s.cfg.reqCode.code .setLed) := by
  refine ⟨⟨_, rfl⟩, by decide, next_of_isSome (by decide), by decide⟩

theorem witness_HandshakeStallsWithoutAck :
    let s := { st .awaitingUserModeAck with rxPending := [⟨⟨0x46, 0, 0⟩, rejecting⟩, ⟨⟨0x41, 0, 0⟩, rejecting⟩] }
    s.cfg.resetFromAnyState = false ∧ s.rst ≠ .idle ∧ (∀ e ∈ s.rxPending, e.packet.opcode ≠ s.cfg.opAck) ∧
    ∃ t, Sys2Proof.core.run 2 s = .next t := by
  refine ⟨by decide, by decide, by decide, next_of_isSome (by decide)⟩

theorem witness_EveryPendingEventIsTaken : (contended .rx).cfg.wf = true := by decide

end Sys2Proof.Tests
end

section
/-! PROOFS. The refusals of an ill-formed configuration (00_scope.md R7) and the byte decoder (30_encoding.md R60). -/

namespace Sys2Proof

/-- Any one of R7's three collisions makes a configuration ill-formed. -/
theorem Config.not_wf_of_opcode_collision {c : Config}
    (h : c.opReset = c.opAck ∨ c.opReset = c.opBiocEvent ∨ c.opAck = c.opBiocEvent) : ¬ c.wf = true := by
  intro hwf
  obtain ⟨hra, hrb, hab⟩ := Config.opcodes_of_wf hwf
  obtain h | h | h := h
  · exact hra h
  · exact hrb h
  · exact hab h

/-- R7 constrains no outbound byte: `wf` reads none of the three. -/
theorem Config.wf_with_outbound (c : Config) (biocOn ledUsr ledSet : Byte) :
    ({ c with cmdBiocOn := biocOn, cmdLedUsr := ledUsr, cmdLedSet := ledSet } : Config).wf = c.wf := rfl

theorem decodeBytes_of_not_wf {c : Config} (h : c.wf = false) (bs : List Byte) :
    decodeBytes c bs = .error .illFormedConfiguration := by
  simp [decodeBytes, h]

theorem decodeBytes_three {c : Config} (h : c.wf = true) (op d1 d2 : Byte) :
    decodeBytes c [op, d1, d2] = .ok (decode c (.packet ⟨op, d1, d2⟩)) := by
  simp [decodeBytes, h]

theorem decodeBytes_of_length_ne_three {c : Config} (h : c.wf = true) {bs : List Byte} (hlen : bs.length ≠ 3) :
    decodeBytes c bs = .error (.notThreeBytes bs.length) := by
  unfold decodeBytes
  rw [if_pos h]
  split
  · exact absurd rfl hlen
  · rfl

namespace Machine

theorem step_of_not_wf {s : State} (h : ¬ s.cfg.wf = true) : step s = .refused .illFormedConfiguration :=
  if_neg h

/-- Settles O2: each collision breaks `wf`, which `step` tests before anything else and which reads no outbound byte. -/
theorem collidingOpcodesAreRefused : Obligations.CollidingOpcodesAreRefused :=
  ⟨fun _ h => step_of_not_wf (Config.not_wf_of_opcode_collision h), Config.wf_with_outbound⟩

/-- Settles O8: one clause for each of the byte decoder's three answers. -/
theorem packetIsThreeBytes : Obligations.PacketIsThreeBytes := by
  intro c bs
  refine ⟨fun h => decodeBytes_of_not_wf h bs, fun h hlen => decodeBytes_of_length_ne_three h hlen, ?_⟩
  rintro h op d1 d2 rfl
  exact decodeBytes_three h op d1 d2

end Machine

end Sys2Proof
end

section
/-! PROOFS. The block's state over a step and over a run (10_state.md): the invariant of R25 and R150, which event changes which
state element (R23, R24, R28), and what holds after reset (R29). -/

namespace Sys2Proof.Machine

/-! ### The invariant -/

/-- `Inv` reads four fields only. -/
theorem Inv.congr {s t : State} (h : Inv s) (hcfg : t.cfg = s.cfg) (hledc : t.ledc = s.ledc) (hrst : t.rst = s.rst)
    (hlog : t.txLog = s.txLog) : Inv t where
  config := hcfg ▸ h.config
  cache := by rw [hledc, hcfg, hlog]; exact h.cache
  handshake := by rw [hrst, hlog]; exact h.handshake
  log := by rw [hcfg, hlog]; exact h.log

/-- One submission keeps the invariant when the cache and the handshake state move with it and it has the bytes of its form;
its wire effect is always a permitted one. -/
theorem Inv.of_submission {s t : State} {f : TxForm} {bs : List Byte} (h : Inv s) (hcfg : t.cfg = s.cfg)
    (hlog : t.txLog = s.txLog ++ [s.env.submission f bs])
    (hledc : t.ledc.toList = if f = .ledSet then bs else s.ledc.toList)
    (hrst : t.rst = rstAfterSubmission s.rst (s.env.submission f bs))
    (hbytes : FormBytes s.cfg s.txLog (s.env.submission f bs)) : Inv t where
  config := hcfg ▸ h.config
  cache := by rw [hledc, hcfg, hlog, cacheAfter_snoc, h.cache]; rfl
  handshake := by rw [hrst, hlog, rstAfter_snoc, h.handshake]
  log := by
    rw [hcfg, hlog]
    exact logExplained_snoc h.log hbytes (wireEffect_submission _ _ _)

/-- Each transition of HS_STEP writes the very state its submission stands for (R140); a restore's bytes are the cache's. -/
theorem Inv.hsStep {s : State} (h : Inv s) (op : Byte) : Inv (hsStep op s) := by
  have hEnable : Inv (sendEnableEvents (s.writeRst .awaitingUserModeAck)) := h.of_submission rfl rfl rfl rfl rfl
  obtain ⟨-, -, ht⟩ | ⟨-, -, ht⟩ | ⟨-, -, ht⟩ | ⟨-, -, -, ht⟩ | ht := hsStep_cases op s <;> rw [ht]
  · exact hEnable
  · exact h.of_submission rfl rfl rfl rfl rfl
  · exact h.of_submission rfl rfl rfl rfl h.cache
  · exact hEnable
  · exact h

theorem Inv.route {s : State} (h : Inv s) (op d1 d2 : Byte) : Inv (route op d1 d2 s) := by
  obtain ⟨hcfg, hledc, -, -, -, -, -, -, hrst, hlog⟩ := route_fields op d1 d2 s
  exact (h.hsStep op).congr (hcfg.trans (hsStep_cfg op s).symm) (hledc.trans (hsStep_ledc op s).symm) hrst hlog

/-- Of the requests only SET_LED writes the cache, with the bytes it submits (R107, R182). -/
theorem Inv.exec_request {c : Config} {r : RawRequest} {s t : State} (h : Inv s)
    (ht : exec (decodeRequest c r) s = .next t) : Inv t := by
  obtain ⟨res, rfl⟩ | ⟨res, rfl⟩ | ⟨-, res, rfl⟩ := exec_request_cases ht
  · exact h.congr rfl rfl rfl rfl
  · exact h.of_submission (f := .init) rfl rfl rfl rfl rfl
  · exact h.of_submission (f := .ledSet) rfl rfl rfl rfl ⟨r.arg, rfl⟩

theorem Inv.takePacket {s : State} (h : Inv s) (e : RxEvent) (rest : List RxEvent) : Inv (s.takePacket e rest) :=
  h.congr rfl rfl rfl rfl

theorem Inv.takeRequest {s : State} (h : Inv s) (e : ReqEvent) (rest : List ReqEvent) : Inv (s.takeRequest e rest) :=
  h.congr rfl rfl rfl rfl

/-- Settles O56: taking an event touches nothing that `Inv` reads, and both kinds of operation keep it. -/
theorem stepKeepsGood : Obligations.StepKeepsGood := by
  intro s t h hst
  obtain ⟨-, ⟨-, -, rfl⟩ | ⟨e, rest, -, rfl⟩ | ⟨e, rest, -, ht⟩⟩ := step_cases hst
  · exact h
  · exact (h.takePacket e rest).route _ _ _
  · exact (h.takeRequest e rest).exec_request ht

theorem inv_resetOf {c : Config} (h : c.wf = true) : Inv (State.resetOf c) where
  config := h
  cache := rfl
  handshake := rfl
  log := logExplained_nil c

/-- Settles O55: at reset the log is empty, so each clause speaks of the parameters alone. -/
theorem goodAtReset : Obligations.GoodAtReset :=
  ⟨fun _ h => inv_resetOf h, inv_resetOf Config.chip_wf⟩

/-! ### What one step changes -/

/-- The step from `s` to `t` took the packet `e`: what that does to the queues, the configuration and the state elements. -/
structure TakesPacket (s t : State) (e : RxEvent) : Prop where
  rxPending : s.rxPending = e :: t.rxPending
  reqPending : t.reqPending = s.reqPending
  cfg : t.cfg = s.cfg
  ledc : t.ledc = s.ledc
  rst : e.packet.opcode = s.cfg.opReset ∨ e.packet.opcode = s.cfg.opAck ∨ t.rst = s.rst
  btn : (e.packet.opcode = s.cfg.opBiocEvent ∧
      t.btn = buttonWord (buttonsNibble e.packet.data1) (dirsNibble e.packet.data2)) ∨ t.btn = s.btn

/-- The step from `s` to `t` took the request `e`: what that does to the queues, the configuration and the state elements. -/
structure TakesRequest (s t : State) (e : ReqEvent) : Prop where
  reqPending : s.reqPending = e :: t.reqPending
  rxPending : t.rxPending = s.rxPending
  cfg : t.cfg = s.cfg
  btn : t.btn = s.btn
  rst : t.rst = s.rst
  ledc : (e.request.code = s.cfg.reqCode.code .setLed ∧ t.ledc = encodeLed s.cfg e.request.arg) ∨ t.ledc = s.ledc

/-- `RST` after HS_STEP: only the opcodes RESET and ACK can move it (R145). -/
theorem hsStep_rst_cases (op : Byte) (s : State) :
    op = s.cfg.opReset ∨ op = s.cfg.opAck ∨ (hsStep op s).rst = s.rst := by
  by_cases hReset : op = s.cfg.opReset
  · exact .inl hReset
  · by_cases hAck : op = s.cfg.opAck
    · exact .inr (.inl hAck)
    · exact .inr (.inr (by rw [hsStep_of_ne hReset hAck]))

/-- `BTN` after ROUTE: the decoded word of a BIOC_EVENT, or the old word (R160). -/
theorem route_btn_cases (op d1 d2 : Byte) (s : State) :
    (op = s.cfg.opBiocEvent ∧ (route op d1 d2 s).btn = buttonWord (buttonsNibble d1) (dirsNibble d2)) ∨
    (route op d1 d2 s).btn = s.btn := by
  by_cases hBioc : op = s.cfg.opBiocEvent
  · exact .inl ⟨hBioc, route_btn_of_eq hBioc d1 d2⟩
  · exact .inr (route_btn_of_ne hBioc d1 d2)

theorem takesPacket_route {s : State} {e : RxEvent} {rest : List RxEvent} (h : s.rxPending = e :: rest) :
    TakesPacket s (route e.packet.opcode e.packet.data1 e.packet.data2 (s.takePacket e rest)) e := by
  obtain ⟨hcfg, hledc, -, hrx, hreq, -, -, -, hrst, -⟩ :=
    route_fields e.packet.opcode e.packet.data1 e.packet.data2 (s.takePacket e rest)
  exact {
    rxPending := by rw [hrx]; exact h
    reqPending := hreq
    cfg := hcfg
    ledc := hledc
    rst := by rw [hrst]; exact hsStep_rst_cases e.packet.opcode (s.takePacket e rest)
    btn := route_btn_cases e.packet.opcode e.packet.data1 e.packet.data2 (s.takePacket e rest) }

theorem takesRequest_exec {s t : State} {e : ReqEvent} {rest : List ReqEvent} (h : s.reqPending = e :: rest)
    (ht : exec (decodeRequest s.cfg e.request) (s.takeRequest e rest) = .next t) : TakesRequest s t e := by
  obtain ⟨res, rfl⟩ | ⟨res, rfl⟩ | ⟨hcode, res, rfl⟩ := exec_request_cases ht
  · exact ⟨h, rfl, rfl, rfl, rfl, .inr rfl⟩
  · exact ⟨h, rfl, rfl, rfl, rfl, .inr rfl⟩
  · exact ⟨h, rfl, rfl, rfl, rfl, .inl ⟨hcode, rfl⟩⟩

/-- A step waits, takes the oldest packet, or takes the oldest request. -/
theorem step_effect {s t : State} (h : step s = .next t) :
    t = s ∨ (∃ e, TakesPacket s t e) ∨ ∃ e, TakesRequest s t e := by
  obtain ⟨-, ⟨-, -, rfl⟩ | ⟨e, rest, hrx, rfl⟩ | ⟨e, rest, hreq, ht⟩⟩ := step_cases h
  · exact .inl rfl
  · exact .inr (.inl ⟨e, takesPacket_route hrx⟩)
  · exact .inr (.inr ⟨e, takesRequest_exec hreq ht⟩)

theorem step_cfg {s t : State} (h : step s = .next t) : t.cfg = s.cfg := by
  obtain rfl | ⟨e, he⟩ | ⟨e, he⟩ := step_effect h
  · rfl
  · exact he.cfg
  · exact he.cfg

/-- Settles O51: of the three things a step can do, only taking a RESET or an ACK moves `RST`. -/
theorem resetStateChangesOnlyByHandshake : Obligations.ResetStateChangesOnlyByHandshake := by
  intro s t h hne
  obtain rfl | ⟨e, he⟩ | ⟨e, he⟩ := step_effect h
  · exact absurd rfl hne
  · exact ⟨e, he.rxPending, he.reqPending, he.rst.imp_right (·.resolve_right hne)⟩
  · exact absurd he.rst hne

/-- Settles O52: of the three things a step can do, only taking a BIOC_EVENT writes `BTN`. -/
theorem buttonsChangeOnlyByBiocEvent : Obligations.ButtonsChangeOnlyByBiocEvent := by
  intro s t h hne
  obtain rfl | ⟨e, he⟩ | ⟨e, he⟩ := step_effect h
  · exact absurd rfl hne
  · exact ⟨e, he.rxPending, he.reqPending, he.btn.resolve_right hne⟩
  · exact absurd he.btn hne

/-- Settles O53: of the three things a step can do, only taking a SET_LED writes `LEDC`. -/
theorem cacheChangesOnlyBySetLed : Obligations.CacheChangesOnlyBySetLed := by
  intro s t h hne
  obtain rfl | ⟨e, he⟩ | ⟨e, he⟩ := step_effect h
  · exact absurd rfl hne
  · exact absurd he.ledc hne
  · exact ⟨e, he.reqPending, he.rxPending, he.ledc.resolve_right hne⟩

/-! ### Runs -/

/-- A run of one more step is a step and then a run. -/
theorem run_succ_next {M : Host.Core} {n : Nat} {s t : M.State} (h : M.run (n + 1) s = .next t) :
    ∃ u, M.step s = .next u ∧ M.run n u = .next t := by
  unfold Host.Core.run at h
  split at h
  · exact ⟨_, ‹_›, h⟩
  · cases h
  · cases h

/-- What every step keeps, every run keeps. -/
theorem run_keeps {P : State → Prop} (hstep : ∀ s t, P s → step s = .next t → P t) {n : Nat} {s t : State} (hs : P s)
    (h : Sys2Proof.core.run n s = .next t) : P t := by
  induction n generalizing s with
  | zero => exact Host.Outcome.next.inj h ▸ hs
  | succ n ih =>
    obtain ⟨u, hu, hrun⟩ := run_succ_next h
    exact ih (hstep s u hs hu) hrun

/-- Settles O50: no step writes the configuration. -/
theorem configurationIsFixed : Obligations.ConfigurationIsFixed := by
  intro n s t h
  exact run_keeps (P := fun u => u.cfg = s.cfg) (fun _ _ hu hst => (step_cfg hst).trans hu) rfl h

/-- `u`, a later state of a run from `s`: no pending packet is a BIOC_EVENT, and `BTN` is still that of `s`. -/
structure ButtonsKept (s u : State) : Prop where
  cfg : u.cfg = s.cfg
  pending : ∀ e ∈ u.rxPending, e.packet.opcode ≠ s.cfg.opBiocEvent
  btn : u.btn = s.btn

/-- `u`, a later state of a run from `s`: no pending request is a SET_LED, and `LEDC` is still that of `s`. -/
structure CacheKept (s u : State) : Prop where
  cfg : u.cfg = s.cfg
  pending : ∀ e ∈ u.reqPending, e.request.code ≠ s.cfg.reqCode.code .setLed
  ledc : u.ledc = s.ledc

theorem ButtonsKept.step {s u v : State} (h : ButtonsKept s u) (hst : step u = .next v) : ButtonsKept s v := by
  obtain rfl | ⟨e, he⟩ | ⟨e, he⟩ := step_effect hst
  · exact h
  · obtain ⟨hhead, htail⟩ := List.forall_mem_cons.mp (he.rxPending ▸ h.pending)
    have hbtn : v.btn = u.btn := he.btn.resolve_left fun ⟨hop, _⟩ => hhead (h.cfg ▸ hop)
    exact ⟨he.cfg.trans h.cfg, htail, hbtn.trans h.btn⟩
  · exact ⟨he.cfg.trans h.cfg, he.rxPending ▸ h.pending, he.btn.trans h.btn⟩

theorem CacheKept.step {s u v : State} (h : CacheKept s u) (hst : step u = .next v) : CacheKept s v := by
  obtain rfl | ⟨e, he⟩ | ⟨e, he⟩ := step_effect hst
  · exact h
  · exact ⟨he.cfg.trans h.cfg, he.reqPending ▸ h.pending, he.ledc.trans h.ledc⟩
  · obtain ⟨hhead, htail⟩ := List.forall_mem_cons.mp (he.reqPending ▸ h.pending)
    have hledc : v.ledc = u.ledc := he.ledc.resolve_left fun ⟨hcode, _⟩ => hhead (h.cfg ▸ hcode)
    exact ⟨he.cfg.trans h.cfg, htail, hledc.trans h.ledc⟩

/-- Settles O58: a step only shortens the queues, so what no pending event is at the start none becomes later. -/
theorem runKeepsButtonsAndCache : Obligations.RunKeepsButtonsAndCache := by
  intro n s t h
  constructor
  · intro hpending
    exact (run_keeps (P := ButtonsKept s) (fun _ _ hu hst => hu.step hst) ⟨rfl, hpending, rfl⟩ h).btn
  · intro hpending
    exact (run_keeps (P := CacheKept s) (fun _ _ hu hst => hu.step hst) ⟨rfl, hpending, rfl⟩ h).ledc

/-! ### Sequences of operations -/

/-- An RX row is ROUTE under one opcode (R160); that opcode is BIOC_EVENT's only for that row. -/
theorem exec_packet_row {i : Instr} (h : i.isPacket = true) (s : State) :
    ∃ op d1 d2, exec i s = .next (route op d1 d2 s) ∧
      (s.cfg.wf = true → i.wf s.cfg = true → (∀ d1 d2, i ≠ .rxBiocEvent d1 d2) → op ≠ s.cfg.opBiocEvent) := by
  cases i with
  | rxReset d1 d2 => exact ⟨_, d1, d2, rfl, fun hwf _ _ => (Config.opcodes_of_wf hwf).2.1⟩
  | rxAck d1 d2 => exact ⟨_, d1, d2, rfl, fun hwf _ _ => (Config.opcodes_of_wf hwf).2.2⟩
  | rxBiocEvent d1 d2 => exact ⟨_, d1, d2, rfl, fun _ _ hne => absurd rfl (hne d1 d2)⟩
  | rxOther op d1 d2 => exact ⟨op, d1, d2, rfl, fun _ hi _ => ((Config.isOtherOpcode_iff _ _).mp hi).2.2⟩
  | _ => simp [Instr.isPacket] at h

/-- A REQ or TX row writes neither the configuration nor `BTN` (R187, R67). -/
theorem exec_not_packet_fields {i : Instr} {s t : State} (hi : i.isPacket = false) (h : exec i s = .next t) :
    t.cfg = s.cfg ∧ t.btn = s.btn := by
  cases i with
  | rxReset | rxAck | rxBiocEvent | rxOther => simp [Instr.isPacket] at hi
  | _ => cases h; exact ⟨rfl, rfl⟩

theorem exec_cfg {i : Instr} {s t : State} (h : exec i s = .next t) : t.cfg = s.cfg := by
  cases hi : i.isPacket with
  | true =>
    obtain ⟨op, d1, d2, hr, -⟩ := exec_packet_row hi s
    obtain rfl := Host.Outcome.next.inj (hr.symm.trans h)
    exact (route_fields op d1 d2 s).1
  | false => exact (exec_not_packet_fields hi h).1

theorem exec_btn_of_not_biocEvent {i : Instr} {s t : State} (hwf : s.cfg.wf = true) (hi : i.wf s.cfg = true)
    (hne : ∀ d1 d2, i ≠ .rxBiocEvent d1 d2) (h : exec i s = .next t) : t.btn = s.btn := by
  cases hp : i.isPacket with
  | true =>
    obtain ⟨op, d1, d2, hr, hop⟩ := exec_packet_row hp s
    obtain rfl := Host.Outcome.next.inj (hr.symm.trans h)
    exact route_btn_of_ne (hop hwf hi hne) d1 d2
  | false => exact (exec_not_packet_fields hp h).2

/-- A sequence that completes is its first operation and then the rest. -/
theorem execAll_cons_next {i : Instr} {rest : List Instr} {s u : State} (h : execAll (i :: rest) s = .next u) :
    ∃ t, exec i s = .next t ∧ execAll rest t = .next u := by
  unfold execAll at h
  split at h
  · exact ⟨_, ‹_›, h⟩
  · cases h
  · cases h

/-- Settles O39, by induction on the sequence: no operation in it writes `BTN` or the configuration. -/
theorem buttonsAreLevel : Obligations.ButtonsAreLevel := by
  intro between
  induction between with
  | nil =>
    intro s u _ _ h
    rw [← Host.Outcome.next.inj h]
  | cons i rest ih =>
    intro s u hwf hall h
    obtain ⟨t, ht, hrest⟩ := execAll_cons_next h
    rw [List.forall_mem_cons] at hall
    obtain ⟨⟨hi, hne⟩, hall⟩ := hall
    have hcfg : t.cfg = s.cfg := exec_cfg ht
    rw [← exec_btn_of_not_biocEvent hwf hi hne ht]
    rw [← hcfg] at hwf hall
    exact ih t u hwf hall hrest

/-! ### Reset and numbers -/

/-- Settles O1: each field of the reset state by its own lemma, and the chip's configuration is well-formed. -/
theorem resetLeavesIdleAndParameters : Obligations.ResetLeavesIdleAndParameters :=
  ⟨fun c => ⟨State.resetOf_rst c, State.resetOf_btn c, State.resetOf_ledc c, State.resetOf_cfg c, State.resetOf_txLog c,
    State.resetOf_results c, State.resetOf_rxPending c, State.resetOf_reqPending c⟩, rfl, Config.chip_wf⟩

/-- The encoding of `RST` is read back, and 3 is no encoding (R26, R27). -/
theorem ResetState.ofBits_toBits (r : ResetState) : ResetState.ofBits r.toBits = some r ∧ r.toBits ≠ 3 := by
  cases r <;> decide

theorem ResetState.ofBits_eq_none_iff : ∀ b : BitVec 2, ResetState.ofBits b = none ↔ b = 3 := by decide

/-- Settles O3: the encoding by its two lemmas, the remaining numbers by their definitions. -/
theorem numbersOfStatesAndResults : Obligations.NumbersOfStatesAndResults :=
  ⟨rfl, rfl, rfl, ResetState.ofBits_toBits, ResetState.ofBits_eq_none_iff, fun _ => rfl, rfl, rfl, rfl, rfl⟩

end Sys2Proof.Machine
end

section
/-! PROOFS. Order and atomicity (20_memory.md): which pending event a step takes (R42, R46, R51), that none is left out (R50),
which operations can be exchanged (R53), and the bytes a restore sends (R52). -/

namespace Sys2Proof.Machine

/-! ### The event a step takes -/

theorem step_eq_run_packet {s : State} {e : RxEvent} {rest : List RxEvent} (hwf : s.cfg.wf = true)
    (hrx : s.rxPending = e :: rest) (hturn : s.agentNext = .rx ∨ s.reqPending = []) :
    step s = (PendingEvent.packet e).run s := by
  simp [step, hwf, State.takeEvent_rx hrx hturn, PendingEvent.run, hrx]

theorem step_eq_run_request {s : State} {e : ReqEvent} {rest : List ReqEvent} (hwf : s.cfg.wf = true)
    (hreq : s.reqPending = e :: rest) (hturn : s.agentNext = .req ∨ s.rxPending = []) :
    step s = (PendingEvent.request e).run s := by
  simp [step, hwf, State.takeEvent_req hreq hturn, PendingEvent.run, hreq]

/-- Settles O45: the agent's turn fixes the event a step runs, and running it takes it from its queue's head. -/
theorem stepRunsDecodedEvent : Obligations.StepRunsDecodedEvent := by
  constructor
  · intro s e rest hwf hrx hturn
    rw [step_eq_run_packet hwf hrx hturn, PendingEvent.run, hrx]
    rfl
  · intro s e rest hwf hreq hturn
    rw [step_eq_run_request hwf hreq hturn, PendingEvent.run, hreq]
    rfl

/-- The oldest packet's operation completes, removes that packet alone, and answers no request. -/
theorem PendingEvent.run_packet_effect {s : State} {e : RxEvent} {rest : List RxEvent} (h : s.rxPending = e :: rest) :
    ∃ t, (PendingEvent.packet e).run s = .next t ∧ TakesPacket s t e ∧ t.results = s.results := by
  refine ⟨_, exec_decode_packet s.cfg e.packet _ rfl, ?_, ?_⟩
  · rw [h]
    exact takesPacket_route h
  · obtain ⟨-, -, hresults, -⟩ :=
      route_fields e.packet.opcode e.packet.data1 e.packet.data2 (s.takePacket e s.rxPending.tail)
    exact hresults

/-- No row faults or is refused (R71, R209). -/
theorem exec_completes (i : Instr) (s : State) : ∃ t, exec i s = .next t := by
  cases i with
  | _ => exact ⟨_, rfl⟩

/-- A request's operation gives its one result (R46, R200). -/
theorem exec_request_results {c : Config} {r : RawRequest} {s t : State} (h : exec (decodeRequest c r) s = .next t) :
    ∃ res, t.results = s.results ++ [res] := by
  obtain ⟨res, rfl⟩ | ⟨res, rfl⟩ | ⟨-, res, rfl⟩ := exec_request_cases h
  · exact ⟨res, rfl⟩
  · exact ⟨res, rfl⟩
  · exact ⟨res, rfl⟩

/-- The oldest request's operation completes, removes that request alone, and gives it one result. -/
theorem PendingEvent.run_request_effect {s : State} {e : ReqEvent} {rest : List ReqEvent}
    (h : s.reqPending = e :: rest) :
    ∃ t, (PendingEvent.request e).run s = .next t ∧ TakesRequest s t e ∧ ∃ r, t.results = s.results ++ [r] := by
  obtain ⟨t, ht⟩ := exec_completes (decodeRequest s.cfg e.request) (s.takeRequest e rest)
  have hresults : ∃ r, t.results = (s.takeRequest e rest).results ++ [r] := exec_request_results ht
  refine ⟨t, ?_, takesRequest_exec h ht, hresults⟩
  rw [PendingEvent.run, h]
  exact ht

/-- Settles O49: a step waits or runs one oldest event, and the event's own operation says what it removes and answers. -/
theorem eventsTakenInOrder : Obligations.EventsTakenInOrder := by
  intro s t h
  obtain ⟨hwf, -⟩ := step_cases h
  obtain ⟨hrx, hreq, hs⟩ | ⟨e, rest, hrx, hs⟩ | ⟨e, rest, hreq, hs⟩ := step_runs_event hwf
  · exact .inl ⟨hrx, hreq, Host.Outcome.next.inj (h.symm.trans hs)⟩
  · obtain ⟨u, hu, htakes, hresults⟩ := PendingEvent.run_packet_effect hrx
    obtain rfl := Host.Outcome.next.inj (h.symm.trans (hs.trans hu))
    exact .inr (.inl ⟨e, htakes.rxPending, htakes.reqPending, hresults⟩)
  · obtain ⟨u, hu, htakes, hresults⟩ := PendingEvent.run_request_effect hreq
    obtain rfl := Host.Outcome.next.inj (h.symm.trans (hs.trans hu))
    exact .inr (.inr ⟨e, htakes.reqPending, htakes.rxPending, hresults⟩)

theorem step_takes_packet {s : State} {e : RxEvent} {rest : List RxEvent} (hwf : s.cfg.wf = true)
    (hrx : s.rxPending = e :: rest) (hturn : s.agentNext = .rx ∨ s.reqPending = []) :
    ∃ t, step s = .next t ∧ t.rxPending = rest ∧ t.reqPending = s.reqPending := by
  obtain ⟨t, ht, htakes, -⟩ := PendingEvent.run_packet_effect hrx
  exact ⟨t, (step_eq_run_packet hwf hrx hturn).trans ht, (List.cons.inj (htakes.rxPending.symm.trans hrx)).2,
    htakes.reqPending⟩

theorem step_takes_request {s : State} {e : ReqEvent} {rest : List ReqEvent} (hwf : s.cfg.wf = true)
    (hreq : s.reqPending = e :: rest) (hturn : s.agentNext = .req ∨ s.rxPending = []) :
    ∃ t, step s = .next t ∧ t.reqPending = rest ∧ t.rxPending = s.rxPending := by
  obtain ⟨t, ht, htakes, -⟩ := PendingEvent.run_request_effect hreq
  exact ⟨t, (step_eq_run_request hwf hreq hturn).trans ht, (List.cons.inj (htakes.reqPending.symm.trans hreq)).2,
    htakes.rxPending⟩

/-- Settles O48: a schedule that names an agent makes it go first, and O49 says what any other schedule can do. -/
theorem eitherAgentMayGoFirst : Obligations.EitherAgentMayGoFirst := by
  intro s p ps q qs hwf hrx hreq
  refine ⟨?_, ?_, ?_⟩
  · obtain ⟨t, ht, hrest, hkept⟩ := step_takes_packet (s := { s with sched := [.rx] }) hwf hrx (.inl rfl)
    exact ⟨_, t, ht, hrest, hkept.trans hreq⟩
  · obtain ⟨t, ht, hrest, hkept⟩ := step_takes_request (s := { s with sched := [.req] }) hwf hreq (.inl rfl)
    exact ⟨_, t, ht, hkept.trans hrx, hrest⟩
  · intro t ht
    obtain ⟨hnil, -, -⟩ | ⟨e, hpacket, hkept, -⟩ | ⟨e, hrequest, hkept, -⟩ := eventsTakenInOrder s t ht
    · simp [hrx] at hnil
    · exact .inl ⟨(List.cons.inj (hpacket.symm.trans hrx)).2, hkept.trans hreq⟩
    · exact .inr ⟨hkept.trans hrx, (List.cons.inj (hrequest.symm.trans hreq)).2⟩

/-! ### Every pending event is taken -/

theorem run_succ_of_next {M : Host.Core} {s u : M.State} (h : M.step s = .next u) (n : Nat) :
    M.run (n + 1) s = M.run n u := by
  simp [Host.Core.run, h]

/-- The events of `order` are exactly those pending in `s`, each agent's in its own order; as many steps as there are of
them run their operations in that order to `t`, where nothing is pending and each request has its result. -/
structure DrainsTo (s : State) (order : List PendingEvent) (t : State) : Prop where
  packets : order.filterMap PendingEvent.asPacket = s.rxPending
  requests : order.filterMap PendingEvent.asRequest = s.reqPending
  steps : Sys2Proof.core.run (s.rxPending.length + s.reqPending.length) s = .next t
  events : runEvents order s = .next t
  rxEmpty : t.rxPending = []
  reqEmpty : t.reqPending = []
  results : t.results.length = s.results.length + s.reqPending.length

theorem DrainsTo.of_nothing_pending {s : State} (hrx : s.rxPending = []) (hreq : s.reqPending = []) :
    DrainsTo s [] s where
  packets := hrx.symm
  requests := hreq.symm
  steps := by rw [hrx, hreq]; rfl
  events := rfl
  rxEmpty := hrx
  reqEmpty := hreq
  results := by rw [hreq]; rfl

theorem DrainsTo.cons_packet {s u t : State} {e : RxEvent} {order : List PendingEvent} (h : DrainsTo u order t)
    (hstep : step s = .next u) (hrun : (PendingEvent.packet e).run s = .next u) (htakes : TakesPacket s u e)
    (hresults : u.results = s.results) : DrainsTo s (.packet e :: order) t where
  packets := (congrArg (e :: ·) h.packets).trans htakes.rxPending.symm
  requests := h.requests.trans htakes.reqPending
  steps := by
    rw [htakes.rxPending, ← htakes.reqPending, List.length_cons, Nat.add_right_comm]
    exact (run_succ_of_next hstep _).trans h.steps
  events := (runEvents_cons_of_next hrun).trans h.events
  rxEmpty := h.rxEmpty
  reqEmpty := h.reqEmpty
  results := by rw [h.results, hresults, htakes.reqPending]

theorem DrainsTo.cons_request {s u t : State} {e : ReqEvent} {r : ReqResult} {order : List PendingEvent}
    (h : DrainsTo u order t) (hstep : step s = .next u) (hrun : (PendingEvent.request e).run s = .next u)
    (htakes : TakesRequest s u e) (hresults : u.results = s.results ++ [r]) :
    DrainsTo s (.request e :: order) t where
  packets := h.packets.trans htakes.rxPending
  requests := (congrArg (e :: ·) h.requests).trans htakes.reqPending.symm
  steps := by
    rw [htakes.reqPending, ← htakes.rxPending, List.length_cons, ← Nat.add_assoc]
    exact (run_succ_of_next hstep _).trans h.steps
  events := (runEvents_cons_of_next hrun).trans h.events
  rxEmpty := h.rxEmpty
  reqEmpty := h.reqEmpty
  results := by
    rw [h.results, hresults, htakes.reqPending, List.length_append, List.length_singleton, List.length_cons]
    omega

/-- By induction on the number of pending events: a step runs one of them and leaves one fewer. -/
theorem exists_drainsTo {n : Nat} {s : State} (hwf : s.cfg.wf = true)
    (hn : s.rxPending.length + s.reqPending.length = n) : ∃ order t, DrainsTo s order t := by
  induction n generalizing s with
  | zero =>
    obtain ⟨hrx, hreq⟩ := Nat.add_eq_zero_iff.mp hn
    exact ⟨[], s, .of_nothing_pending (List.eq_nil_of_length_eq_zero hrx) (List.eq_nil_of_length_eq_zero hreq)⟩
  | succ n ih =>
    obtain ⟨hrx, hreq, -⟩ | ⟨e, rest, hrx, hs⟩ | ⟨e, rest, hreq, hs⟩ := step_runs_event hwf
    · simp [hrx, hreq] at hn
    · obtain ⟨u, hu, htakes, hresults⟩ := PendingEvent.run_packet_effect hrx
      rw [htakes.rxPending, ← htakes.reqPending, List.length_cons] at hn
      obtain ⟨order, t, h⟩ := ih (htakes.cfg ▸ hwf) (by omega)
      exact ⟨_, t, h.cons_packet (hs.trans hu) hu htakes hresults⟩
    · obtain ⟨u, hu, htakes, r, hresults⟩ := PendingEvent.run_request_effect hreq
      rw [htakes.reqPending, ← htakes.rxPending, List.length_cons] at hn
      obtain ⟨order, t, h⟩ := ih (htakes.cfg ▸ hwf) (by omega)
      exact ⟨_, t, h.cons_request (hs.trans hu) hu htakes hresults⟩

/-- Settles O60: the order in which the pending events drain is the total order asked for. -/
theorem everyPendingEventIsTaken : Obligations.EveryPendingEventIsTaken := by
  intro s hwf
  obtain ⟨order, t, h⟩ := exists_drainsTo hwf rfl
  exact ⟨order, t, h.packets, h.requests, h.steps, h.events, h.rxEmpty, h.reqEmpty, h.results⟩

/-! ### The last LED bytes -/

/-- Only a led-set moves the cache's reading of the log (R24). -/
theorem cacheAfter_append_of_no_ledSet (c : Config) (log : List Submission) {after : List Submission}
    (h : ∀ x ∈ after, x.form ≠ .ledSet) : cacheAfter c (log ++ after) = cacheAfter c log := by
  induction after generalizing log with
  | nil => rw [List.append_nil]
  | cons sub rest ih =>
    obtain ⟨hsub, hrest⟩ := List.forall_mem_cons.mp h
    rw [← List.singleton_append, ← List.append_assoc, ih (log ++ [sub]) hrest, cacheAfter_snoc, if_neg hsub]

/-- A led-set is what the cache then holds, and a restore has the bytes the cache holds already (R52, R67). -/
theorem cacheAfter_snoc_led {c : Config} {before : List Submission} {sub : Submission}
    (hform : sub.form = .ledSet ∨ sub.form = .ledRestore) (hbytes : FormBytes c before sub) :
    cacheAfter c (before ++ [sub]) = sub.bytes := by
  rw [cacheAfter_snoc]
  obtain hset | hrestore := hform
  · exact if_pos hset
  · have hcached : sub.bytes = cacheAfter c before := by simpa only [FormBytes, hrestore] using hbytes
    rw [if_neg (by simp [hrestore]), hcached]

/-- Settles O57: the cache holds what the log's last led-set left, and what follows the last LED bytes does not move it. -/
theorem lastLedBytesAreCached : Obligations.LastLedBytesAreCached := by
  intro s before after sub hinv hlog hform hafter
  obtain ⟨hbytes, -⟩ := hinv.log before sub after hlog
  calc sub.bytes
      = cacheAfter s.cfg (before ++ [sub]) := (cacheAfter_snoc_led hform hbytes).symm
    _ = cacheAfter s.cfg ((before ++ [sub]) ++ after) :=
        (cacheAfter_append_of_no_ledSet s.cfg _ fun x hx => (hafter x hx).1).symm
    _ = cacheAfter s.cfg s.txLog := by rw [List.append_assoc, List.singleton_append, hlog]
    _ = s.ledc.toList := hinv.cache.symm

/-! ### Operations that can be exchanged -/

theorem execAll_pair {i j : Instr} {s t u : State} (hi : exec i s = .next t) (hj : exec j t = .next u) :
    execAll [i, j] s = .next u := by
  simp [execAll, hi, hj]

/-- The handshake does not read `BTN` (R140). -/
theorem hsStep_writeBtn (op v : Byte) (s : State) : hsStep op (s.writeBtn v) = (hsStep op s).writeBtn v := by
  simp only [hsStep, State.writeBtn_rst, State.writeBtn_cfg, apply_ite (State.writeBtn v)]
  rfl

/-- The handshake does not read the results (R140). -/
theorem hsStep_finish (op : Byte) (r : ReqResult) (s : State) : hsStep op (s.finish r) = (hsStep op s).finish r := by
  simp only [hsStep, State.finish_rst, State.finish_cfg, apply_ite (State.finish r)]
  rfl

theorem exec_rxBiocEvent {s : State} (h : s.cfg.wf = true) (d1 d2 : Byte) :
    exec (.rxBiocEvent d1 d2) s = .next (s.writeBtn (buttonWord (buttonsNibble d1) (dirsNibble d2))) :=
  congrArg Host.Outcome.next (route_of_bioc h d1 d2)

theorem exec_reqGetButtons (arg : Descriptor) (s : State) :
    exec (.reqGetButtons arg) s = .next (s.finish (s.env.copyResult s.btn)) := rfl

/-- Every RX row but BIOC_EVENT is HS_STEP of one opcode, the same from every state of a configuration (R160). -/
theorem exec_packet_eq_hsStep {c : Config} {i : Instr} (hwf : c.wf = true) (hi : i.wf c = true)
    (hpacket : i.isPacket = true) (hne : ∀ d1 d2, i ≠ .rxBiocEvent d1 d2) :
    ∃ op, ∀ s : State, s.cfg = c → exec i s = .next (hsStep op s) := by
  obtain ⟨-, hreset, hack⟩ := Config.opcodes_of_wf hwf
  cases i with
  | rxReset d1 d2 => exact ⟨c.opReset, by rintro s rfl; exact congrArg _ (route_of_ne hreset d1 d2)⟩
  | rxAck d1 d2 => exact ⟨c.opAck, by rintro s rfl; exact congrArg _ (route_of_ne hack d1 d2)⟩
  | rxBiocEvent d1 d2 => exact absurd rfl (hne d1 d2)
  | rxOther op d1 d2 =>
    obtain ⟨-, -, hother⟩ := (Config.isOtherOpcode_iff c op).mp hi
    exact ⟨op, by rintro s rfl; exact congrArg _ (route_of_ne hother d1 d2)⟩
  | _ => simp [Instr.isPacket] at hpacket

/-- Of the REQ and TX rows only GET_BUTTONS reads `BTN`, and none writes it (R187, R67). -/
theorem exec_not_packet_writeBtn {i : Instr} (hi : i.isPacket = false) (hne : ∀ arg, i ≠ .reqGetButtons arg)
    {s t : State} (h : exec i s = .next t) (v : Byte) : exec i (s.writeBtn v) = .next (t.writeBtn v) := by
  cases i with
  | rxReset | rxAck | rxBiocEvent | rxOther => simp [Instr.isPacket] at hi
  | reqGetButtons arg => exact absurd rfl (hne arg)
  | _ => cases h; rfl

/-- An operation that neither reads nor writes `BTN` can be exchanged with a write of `BTN` (R53). -/
theorem exec_writeBtn {i : Instr} {s t : State} (hwf : s.cfg.wf = true) (hi : i.wf s.cfg = true)
    (hbioc : ∀ d1 d2, i ≠ .rxBiocEvent d1 d2) (hget : ∀ arg, i ≠ .reqGetButtons arg) (h : exec i s = .next t)
    (v : Byte) : exec i (s.writeBtn v) = .next (t.writeBtn v) := by
  cases hp : i.isPacket with
  | true =>
    obtain ⟨op, hop⟩ := exec_packet_eq_hsStep hwf hi hp hbioc
    obtain rfl := Host.Outcome.next.inj ((hop s rfl).symm.trans h)
    rw [hop (s.writeBtn v) rfl, hsStep_writeBtn]
  | false => exact exec_not_packet_writeBtn hp hget h v

/-- A request ends with its one result and does not read the results before it; it leaves `BTN` and the environment's
answers as they are (R187, R200). -/
theorem exec_request_finish {i : Instr} (hi : i.isRequest = true) (s : State) :
    ∃ (t : State) (res : ReqResult),
      exec i s = .next (t.finish res) ∧ t.btn = s.btn ∧ t.env = s.env ∧ t.results = s.results ∧
      ∀ r, exec i (s.finish r) = .next ((t.finish r).finish res) := by
  cases i with
  | rxReset | rxAck | rxBiocEvent | rxOther => simp [Instr.isRequest] at hi
  | txEnableEvents | txLedUserMode | txLedRestore | txLedSet | txInit => simp [Instr.isRequest] at hi
  | _ => exact ⟨_, _, rfl, rfl, rfl, rfl, fun _ => rfl⟩

theorem biocEvent_commutes {i : Instr} {s : State} (hwf : s.cfg.wf = true) (hi : i.wf s.cfg = true)
    (hbioc : ∀ d1 d2, i ≠ .rxBiocEvent d1 d2) (hget : ∀ arg, i ≠ .reqGetButtons arg) (d1 d2 : Byte) :
    execAll [.rxBiocEvent d1 d2, i] s = execAll [i, .rxBiocEvent d1 d2] s := by
  obtain ⟨t, ht⟩ := exec_completes i s
  have htwf : t.cfg.wf = true := exec_cfg ht ▸ hwf
  rw [execAll_pair (exec_rxBiocEvent hwf d1 d2) (exec_writeBtn hwf hi hbioc hget ht _),
    execAll_pair ht (exec_rxBiocEvent htwf d1 d2)]

theorem getButtons_commutes_with_packet {i : Instr} {s : State} (hwf : s.cfg.wf = true) (hi : i.wf s.cfg = true)
    (hbioc : ∀ d1 d2, i ≠ .rxBiocEvent d1 d2) (hpacket : i.isPacket = true) (arg : Descriptor) :
    execAll [.reqGetButtons arg, i] s = execAll [i, .reqGetButtons arg] s := by
  obtain ⟨op, hop⟩ := exec_packet_eq_hsStep hwf hi hpacket hbioc
  obtain ⟨-, hbtn, -, -, -, -, -, -, henv⟩ := hsStep_fields op s
  rw [execAll_pair (exec_reqGetButtons arg s) (hop (s.finish _) rfl),
    execAll_pair (hop s rfl) (exec_reqGetButtons arg _), hbtn, henv, hsStep_finish]

theorem State.finish_finish_of_results {s t : State} (h : t.results = s.results) (r r' : ReqResult) :
    (t.finish r).finish r' = { t with results := s.results ++ [r, r'] } := by
  simp [State.finish, h]

theorem getButtons_swaps_results {i : Instr} (hi : i.isRequest = true) (s : State) (arg : Descriptor) :
    ∃ (t : State) (r r' : ReqResult),
      execAll [.reqGetButtons arg, i] s = .next { t with results := s.results ++ [r, r'] } ∧
      execAll [i, .reqGetButtons arg] s = .next { t with results := s.results ++ [r', r] } := by
  obtain ⟨t, res, ht, hbtn, henv, hresults, hafter⟩ := exec_request_finish hi s
  refine ⟨t, s.env.copyResult s.btn, res, ?_, ?_⟩
  · rw [execAll_pair (exec_reqGetButtons arg s) (hafter _), State.finish_finish_of_results hresults]
  · have hread : (t.finish res).env.copyResult (t.finish res).btn = s.env.copyResult s.btn := by
      rw [State.finish_env, State.finish_btn, henv, hbtn]
    rw [execAll_pair ht (exec_reqGetButtons arg _), hread, State.finish_finish_of_results hresults]

/-- Settles O54: a BIOC_EVENT is a write of `BTN`, a GET_BUTTONS a result read from it, and neither touches what the other
operation reads. -/
theorem disjointOperationsCommute : Obligations.DisjointOperationsCommute := by
  intro s i hwf hi hbioc
  exact ⟨fun d1 d2 _ hget => biocEvent_commutes hwf hi hbioc hget d1 d2,
    fun arg hpacket => getButtons_commutes_with_packet hwf hi hbioc hpacket arg,
    fun arg hrequest => getButtons_swaps_results hrequest s arg⟩

end Sys2Proof.Machine
end

section
/-! PROOFS. The formats (30_encoding.md): decoding and encoding of input words (R61, R69, R71, R72), the operands of a
BIOC_EVENT packet (R62), the layout of an LED command (R66), and the TX rows with the input rows that submit them (R67). -/

namespace Sys2Proof

/-! ### Packets -/

theorem decode_packet_opReset (c : Config) (d1 d2 : Byte) : decode c (.packet ⟨c.opReset, d1, d2⟩) = .rxReset d1 d2 :=
  if_pos rfl

theorem decode_packet_opAck {c : Config} (h : c.wf = true) (d1 d2 : Byte) :
    decode c (.packet ⟨c.opAck, d1, d2⟩) = .rxAck d1 d2 := by
  obtain ⟨hra, -, -⟩ := Config.opcodes_of_wf h
  simp [decode, decodePacket, hra.symm]

theorem decode_packet_opBiocEvent {c : Config} (h : c.wf = true) (d1 d2 : Byte) :
    decode c (.packet ⟨c.opBiocEvent, d1, d2⟩) = .rxBiocEvent d1 d2 := by
  obtain ⟨-, hrb, hab⟩ := Config.opcodes_of_wf h
  simp [decode, decodePacket, hrb.symm, hab.symm]

theorem decode_packet_of_isOtherOpcode {c : Config} {op : Byte} (h : c.isOtherOpcode op = true) (d1 d2 : Byte) :
    decode c (.packet ⟨op, d1, d2⟩) = .rxOther op d1 d2 := by
  obtain ⟨hReset, hAck, hBioc⟩ := (c.isOtherOpcode_iff op).mp h
  simp [decode, decodePacket, hReset, hAck, hBioc]

/-- Settles O4: one decoding equation for each of R61's four classes. -/
theorem packetClassByWholeOpcode : Obligations.PacketClassByWholeOpcode := by
  intro c op d1 d2 hwf
  refine ⟨?_, ?_, ?_, fun hReset hAck hBioc => ?_⟩
  · rintro rfl
    exact decode_packet_opReset c d1 d2
  · rintro rfl
    exact decode_packet_opAck hwf d1 d2
  · rintro rfl
    exact decode_packet_opBiocEvent hwf d1 d2
  · exact decode_packet_of_isOtherOpcode ((c.isOtherOpcode_iff op).mpr ⟨hReset, hAck, hBioc⟩) d1 d2

/-! ### Requests -/

/-- The row of a request kind (R69's table). -/
def ReqKind.row : ReqKind → Descriptor → Instr
  | .init => .reqInitialize
  | .getButtons => .reqGetButtons
  | .setLed => .reqSetLed
  | .ledAck => .reqLedAck
  | .ledRequest => .reqLedRequest
  | .readLed => .reqReadLed

theorem ReqKind.mem_all (k : ReqKind) : k ∈ ReqKind.all := by
  cases k <;> decide

/-- R6: `P_REQ_CODE` is injective. -/
theorem Config.code_injective {c : Config} (h : c.wf = true) : Function.Injective c.reqCode.code :=
  fun k k' hk => List.inj_on_of_nodup_map (Config.codes_of_wf h) k.mem_all k'.mem_all hk

theorem Config.isUnsupportedCode_iff_forall (c : Config) (code : Nat) :
    c.isUnsupportedCode code = true ↔ ∀ k : ReqKind, code ≠ c.reqCode.code k := by
  simp only [Config.isUnsupportedCode, decide_eq_true_eq, List.mem_map, ReqKind.mem_all, true_and, not_exists]
  exact forall_congr' fun k => ne_comm

theorem encode_row (c : Config) (k : ReqKind) (arg : Descriptor) :
    encode c (k.row arg) = some (.request ⟨c.reqCode.code k, arg⟩) := by
  cases k <;> rfl

theorem ReqKind.row_wf (k : ReqKind) (c : Config) (arg : Descriptor) : (k.row arg).wf c = true := by
  cases k <;> rfl

theorem ReqKind.row_isInput (k : ReqKind) (arg : Descriptor) : (k.row arg).isInput = true := by
  cases k <;> rfl

/-- A request decodes to the row of a kind that has its code, or to the row selected by exclusion (R69). -/
theorem decodeRequest_row_or_unsupported (c : Config) (r : RawRequest) :
    (∃ k : ReqKind, r.code = c.reqCode.code k ∧ decodeRequest c r = k.row r.arg) ∨
    (c.isUnsupportedCode r.code = true ∧ decodeRequest c r = .reqUnsupported r.code r.arg) := by
  obtain h | h | h | h | h | h | h := decodeRequest_cases c r
  · exact .inl ⟨.init, h⟩
  · exact .inl ⟨.getButtons, h⟩
  · exact .inl ⟨.setLed, h⟩
  · exact .inl ⟨.ledAck, h⟩
  · exact .inl ⟨.ledRequest, h⟩
  · exact .inl ⟨.readLed, h⟩
  · exact .inr h

/-- The kind that the decoder finds is the only one with that code. -/
theorem decode_request_code {c : Config} (h : c.wf = true) (k : ReqKind) (arg : Descriptor) :
    decode c (.request ⟨c.reqCode.code k, arg⟩) = k.row arg := by
  obtain ⟨k', hcode, hrow⟩ | ⟨hunsupported, -⟩ := decodeRequest_row_or_unsupported c ⟨c.reqCode.code k, arg⟩
  · obtain rfl : k = k' := Config.code_injective h hcode
    exact hrow
  · exact absurd rfl ((c.isUnsupportedCode_iff_forall _).mp hunsupported k)

theorem decode_request_of_isUnsupportedCode {c : Config} {code : Nat} (h : c.isUnsupportedCode code = true)
    (arg : Descriptor) : decode c (.request ⟨code, arg⟩) = .reqUnsupported code arg := by
  obtain ⟨k, hcode, -⟩ | ⟨-, hrow⟩ := decodeRequest_row_or_unsupported c ⟨code, arg⟩
  · exact absurd hcode ((c.isUnsupportedCode_iff_forall code).mp h k)
  · exact hrow

/-- Settles O5: the six kinds are one lemma over the kind, and the image of `P_REQ_CODE` is the codes of all kinds. -/
theorem requestKindByCode : Obligations.RequestKindByCode := by
  intro c arg hwf
  exact ⟨decode_request_code hwf .init arg, decode_request_code hwf .getButtons arg,
    decode_request_code hwf .setLed arg, decode_request_code hwf .ledAck arg,
    decode_request_code hwf .ledRequest arg, decode_request_code hwf .readLed arg,
    fun code hcode => decode_request_of_isUnsupportedCode ((c.isUnsupportedCode_iff_forall code).mpr hcode) arg⟩

/-! ### Round trips -/

/-- Settles O6, by cases on the row: its word has its own opcode or code, and well-formedness excludes the others; a TX row
has no word. -/
theorem decodeOfEncode : Obligations.DecodeOfEncode := by
  intro c i w hwf hi hw
  cases i with
  | rxReset d1 d2 => exact Option.some.inj hw ▸ decode_packet_opReset c d1 d2
  | rxAck d1 d2 => exact Option.some.inj hw ▸ decode_packet_opAck hwf d1 d2
  | rxBiocEvent d1 d2 => exact Option.some.inj hw ▸ decode_packet_opBiocEvent hwf d1 d2
  | rxOther op d1 d2 => exact Option.some.inj hw ▸ decode_packet_of_isOtherOpcode hi d1 d2
  | reqInitialize arg => exact Option.some.inj hw ▸ decode_request_code hwf .init arg
  | reqGetButtons arg => exact Option.some.inj hw ▸ decode_request_code hwf .getButtons arg
  | reqSetLed desc => exact Option.some.inj hw ▸ decode_request_code hwf .setLed desc
  | reqLedAck arg => exact Option.some.inj hw ▸ decode_request_code hwf .ledAck arg
  | reqLedRequest arg => exact Option.some.inj hw ▸ decode_request_code hwf .ledRequest arg
  | reqReadLed arg => exact Option.some.inj hw ▸ decode_request_code hwf .readLed arg
  | reqUnsupported code arg => exact Option.some.inj hw ▸ decode_request_of_isUnsupportedCode hi arg
  | txEnableEvents | txLedUserMode | txLedRestore | txLedSet | txInit => cases hw

/-- A packet's row is a well-formed input row with that packet as its word (R71). -/
theorem decodePacket_wf_isInput_encode (c : Config) (p : RawPacket) :
    (decodePacket c p).wf c = true ∧ (decodePacket c p).isInput = true ∧
    encode c (decodePacket c p) = some (.packet p) := by
  obtain ⟨op, d1, d2⟩ := p
  obtain ⟨rfl, hd⟩ | ⟨rfl, hd⟩ | ⟨rfl, hd⟩ | ⟨hother, hd⟩ := decodePacket_cases c ⟨op, d1, d2⟩ <;> rw [hd]
  · exact ⟨rfl, rfl, rfl⟩
  · exact ⟨rfl, rfl, rfl⟩
  · exact ⟨rfl, rfl, rfl⟩
  · exact ⟨hother, rfl, rfl⟩

/-- A request's row is a well-formed input row with that request as its word (R71). -/
theorem decodeRequest_wf_isInput_encode (c : Config) (r : RawRequest) :
    (decodeRequest c r).wf c = true ∧ (decodeRequest c r).isInput = true ∧
    encode c (decodeRequest c r) = some (.request r) := by
  obtain ⟨code, arg⟩ := r
  obtain ⟨k, rfl, hrow⟩ | ⟨hunsupported, hrow⟩ := decodeRequest_row_or_unsupported c ⟨code, arg⟩ <;> rw [hrow]
  · exact ⟨k.row_wf c arg, k.row_isInput arg, encode_row c k arg⟩
  · exact ⟨hunsupported, rfl, rfl⟩

/-- Settles O7, by the port of the word. -/
theorem encodeOfDecode : Obligations.EncodeOfDecode := by
  intro c w
  cases w with
  | packet p => exact decodePacket_wf_isInput_encode c p
  | request r => exact decodeRequest_wf_isInput_encode c r

namespace Machine

/-! ### The nibbles of a BIOC_EVENT packet -/

theorem buttonsNibble_toNat (d : Byte) : (buttonsNibble d).toNat = d.toNat % 16 := by
  simp [buttonsNibble]

theorem dirsNibble_toNat (d : Byte) : (dirsNibble d).toNat = d.toNat % 16 := by
  simp [dirsNibble]

/-- ROUTE reads the data bytes by their two nibbles alone (R160, R162). -/
theorem route_congr {d1 d1' d2 d2' : Byte} (hbuttons : buttonsNibble d1 = buttonsNibble d1')
    (hdirs : dirsNibble d2 = dirsNibble d2') (op : Byte) (s : State) : route op d1 d2 s = route op d1' d2' s := by
  simp only [route, hbuttons, hdirs]

/-- Settles O10: bytes with equal low nibbles have equal operands, and the operands are all that ROUTE reads of them. -/
theorem biocEventReadsLowNibbles : Obligations.BiocEventReadsLowNibbles := by
  refine ⟨fun d => ⟨buttonsNibble_toNat d, dirsNibble_toNat d⟩, ?_⟩
  intro s d1 d1' d2 d2' h1 h2
  have hbuttons : buttonsNibble d1 = buttonsNibble d1' :=
    BitVec.eq_of_toNat_eq (by rw [buttonsNibble_toNat, buttonsNibble_toNat, h1])
  have hdirs : dirsNibble d2 = dirsNibble d2' :=
    BitVec.eq_of_toNat_eq (by rw [dirsNibble_toNat, dirsNibble_toNat, h2])
  exact congrArg Host.Outcome.next (route_congr hbuttons hdirs s.cfg.opBiocEvent s)

/-! ### The LED command -/

/-- R66: bits 7:4 of the mask byte are zero in both modes. -/
theorem maskByte_high_nibble (c : Config) (desc : Descriptor) : (maskByte c desc).extractLsb' 4 4 = 0 := by
  unfold maskByte
  split
  · ext i hi
    simp
  · rfl

/-- Settles O12: the order and the length are those of the six fields, and the mask's high nibble has its own lemma. -/
theorem ledCommandLayout : Obligations.LedCommandLayout :=
  fun c desc => ⟨rfl, LedBytes.toList_length _, maskByte_high_nibble c desc⟩

/-! ### The TX rows -/

theorem exec_txEnableEvents (s : State) :
    exec .txEnableEvents s = .next (s.transmit .enableEvents [s.cfg.cmdBiocOn]) := rfl

theorem exec_txLedUserMode (s : State) :
    exec .txLedUserMode s = .next (s.transmit .ledUserMode [s.cfg.cmdLedUsr]) := rfl

theorem exec_txLedRestore (s : State) : exec .txLedRestore s = .next (s.transmit .ledRestore s.ledc.toList) := rfl

theorem exec_txLedSet (desc : Descriptor) (s : State) :
    exec (.txLedSet desc) s = .next (s.transmit .ledSet (encodeLed s.cfg desc).toList) := rfl

theorem exec_txInit (s : State) :
    exec .txInit s = .next (s.transmit .init [s.cfg.cmdBiocOn, s.cfg.cmdLedUsr]) := rfl

/-- Settles O41: each row is one `Transmit` of its form's bytes, which joins TXLOG and changes nothing else. -/
theorem txRowsSubmitTheirBytes : Obligations.TxRowsSubmitTheirBytes :=
  fun s desc => ⟨exec_txEnableEvents s, exec_txLedUserMode s, exec_txLedRestore s, exec_txLedSet desc s, exec_txInit s⟩

/-! ### The input rows that submit -/

theorem exec_rxReset {s : State} (h : s.cfg.wf = true) (d1 d2 : Byte) :
    exec (.rxReset d1 d2) s = .next (hsStep s.cfg.opReset s) := by
  obtain ⟨-, hrb, -⟩ := Config.opcodes_of_wf h
  exact congrArg Host.Outcome.next (route_of_ne hrb d1 d2)

theorem exec_rxAck {s : State} (h : s.cfg.wf = true) (d1 d2 : Byte) :
    exec (.rxAck d1 d2) s = .next (hsStep s.cfg.opAck s) := by
  obtain ⟨-, -, hab⟩ := Config.opcodes_of_wf h
  exact congrArg Host.Outcome.next (route_of_ne hab d1 d2)

/-- R141: RESET in Idle. -/
theorem hsStep_reset_of_idle {s : State} (h : s.rst = .idle) :
    hsStep s.cfg.opReset s = sendEnableEvents (s.writeRst .awaitingUserModeAck) := by
  simp [hsStep, h]

/-- R142: the first ACK. -/
theorem hsStep_ack_of_awaitingUserModeAck {s : State} (h : s.rst = .awaitingUserModeAck) :
    hsStep s.cfg.opAck s = sendLedUserMode (s.writeRst .awaitingLedRestoreAck) := by
  simp [hsStep, h]

/-- R143: the second ACK. -/
theorem hsStep_ack_of_awaitingLedRestoreAck {s : State} (h : s.rst = .awaitingLedRestoreAck) :
    hsStep s.cfg.opAck s = sendLedRestore (s.writeRst .idle) := by
  simp [hsStep, h]

/-- R182, by TX.LED_SET after the cache write. -/
theorem exec_reqSetLed_eq_finish_txLedSet (desc : Descriptor) (s : State) :
    ∃ t, exec (.txLedSet desc) (s.writeLedc (encodeLed s.cfg desc)) = .next t ∧
      exec (.reqSetLed desc) s = .next (t.finish s.env.tx.result) :=
  ⟨_, rfl, rfl⟩

/-- R180, by TX.INIT. -/
theorem exec_reqInitialize_eq_finish_txInit (arg : Descriptor) (s : State) :
    ∃ t, exec .txInit s = .next t ∧ exec (.reqInitialize arg) s = .next (t.finish s.env.tx.result) :=
  ⟨_, rfl, rfl⟩

/-- Settles O42: a handshake transition is the write of `RST` and then its TX row, a submitting request its TX row and then
its result. -/
theorem inputRowsSubmitByTxRows : Obligations.InputRowsSubmitByTxRows := by
  intro s d1 d2 desc hwf
  refine ⟨fun hrst => ?_, fun hrst => ?_, fun hrst => ?_, exec_reqSetLed_eq_finish_txLedSet desc s,
    exec_reqInitialize_eq_finish_txInit desc s⟩
  · rw [exec_rxReset hwf, hsStep_reset_of_idle hrst]
    rfl
  · rw [exec_rxAck hwf, hsStep_ack_of_awaitingUserModeAck hrst]
    rfl
  · rw [exec_rxAck hwf, hsStep_ack_of_awaitingLedRestoreAck hrst]
    rfl

end Machine

end Sys2Proof
end

section
/-! PROOFS. The LedEncoder (41_led_encoder.md): the lanes and the mask byte by the descriptor's bits (R100 to R105), the bits it
ignores (R104), the point as an or (R102, D4), and the repetition of a `setLed` (R108). -/

namespace Sys2Proof.Machine

/-! ### The fields of a descriptor -/

theorem hexDigit_toNat (d : Descriptor) (i : Fin 4) : (hexDigit d i).toNat = d.toNat / 2 ^ (4 * i.val) % 16 := by
  simp [hexDigit, Nat.shiftRight_eq_div_pow]

theorem enableMask_toNat (d : Descriptor) : (enableMask d).toNat = d.toNat / 2 ^ 16 % 16 := by
  simp [enableMask, Nat.shiftRight_eq_div_pow]

theorem hexDigit_congr {d d' : Descriptor} {i : Fin 4}
    (h : ∀ j < 4, d.getLsbD (4 * i + j) = d'.getLsbD (4 * i + j)) : hexDigit d i = hexDigit d' i := by
  refine BitVec.eq_of_getLsbD_eq fun j hj => ?_
  simp only [hexDigit, BitVec.getLsbD_extractLsb', h j hj]

/-- The enable mask is the four digits' enable bits (R64). -/
theorem enableMask_congr {d d' : Descriptor} (h : ∀ i, digitEnabled d i = digitEnabled d' i) :
    enableMask d = enableMask d' := by
  refine BitVec.eq_of_getLsbD_eq fun j hj => ?_
  have hbit : d.getLsbD (16 + j) = d'.getLsbD (16 + j) := h ⟨j, hj⟩
  simp only [enableMask, BitVec.getLsbD_extractLsb', hbit]

/-! ### Lanes and the mask byte -/

/-- SEGLOOKUP by the digit's value (R100). -/
theorem segLookup_hexDigit (c : Config) {d : Descriptor} {i : Fin 4} {k : Fin 16}
    (hk : k.val = d.toNat / 2 ^ (4 * i.val) % 16) : segLookup c (hexDigit d i) = c.segTable[k] := by
  have hval : (hexDigit d i).toNat = k.val := (hexDigit_toNat d i).trans hk.symm
  simp only [segLookup, hval, Fin.getElem_fin]

theorem segByte_of_point_clear (c : Config) {d : Descriptor} {i : Fin 4} (h : digitPoint d i = false) :
    segByte c d i = enableForce (digitEnabled d i) (segLookup c (hexDigit d i)) := by
  rw [segByte, h, dpOverlay_false]

theorem segByte_of_point_set (c : Config) {d : Descriptor} {i : Fin 4} (h : digitPoint d i = true) :
    segByte c d i = enableForce (digitEnabled d i) (segLookup c (hexDigit d i)) + 0x10 := by
  rw [segByte, h, dpOverlay_true]

theorem maskByte_of_fromDescriptor {c : Config} (h : c.maskMode = .fromDescriptor) (d : Descriptor) :
    maskByte c d = (enableMask d).setWidth 8 := by
  rw [maskByte, h]

theorem maskByte_of_allFour {c : Config} (h : c.maskMode = .allFour) (d : Descriptor) : maskByte c d = 0x0F := by
  rw [maskByte, h]

/-- Settles O11: the point and the enable bit choose a lane's case, and SEGLOOKUP is by the digit's value. -/
theorem encodedBytesByBits : Obligations.EncodedBytesByBits := by
  constructor
  · intro c d i k hk
    rw [← segLookup_hexDigit c hk]
    refine ⟨fun hen hdp => ?_, fun hen hdp => ?_, fun hen hdp => ?_, fun hen hdp => ?_⟩ <;>
      change digitEnabled d i = _ at hen
    · rw [segByte_of_point_clear c hdp, hen, enableForce_true]
    · rw [segByte_of_point_set c hdp, hen, enableForce_true]
    · rw [segByte_of_point_clear c hdp, hen, enableForce_false]
    · rw [segByte_of_point_set c hdp, hen, enableForce_false]
      rfl
  · intro c d
    refine ⟨fun hmode => ?_, fun hmode => maskByte_of_allFour hmode d⟩
    rw [maskByte_of_fromDescriptor hmode, BitVec.toNat_setWidth_of_le (by decide), enableMask_toNat]

/-! ### Setting a digit's point -/

/-- The descriptor with the point bit of digit `i` set (R64). -/
abbrev setPoint (d : Descriptor) (i : Fin 4) : Descriptor := d ||| BitVec.twoPow 32 (24 + i)

/-- Setting a point changes that one bit. -/
theorem getLsbD_setPoint_of_ne (d : Descriptor) {i : Fin 4} {n : Nat} (h : n ≠ 24 + i.val) :
    (setPoint d i).getLsbD n = d.getLsbD n := by
  simp [setPoint, BitVec.getLsbD_twoPow, h.symm]

theorem digitPoint_setPoint_self (d : Descriptor) (i : Fin 4) : digitPoint (setPoint d i) i = true := by
  have hi : 24 + i.val < 32 := by omega
  simp [digitPoint, setPoint, hi]

theorem digitPoint_setPoint_of_ne (d : Descriptor) {i j : Fin 4} (h : j ≠ i) :
    digitPoint (setPoint d i) j = digitPoint d j :=
  getLsbD_setPoint_of_ne d (by omega)

theorem digitEnabled_setPoint (d : Descriptor) (i j : Fin 4) : digitEnabled (setPoint d i) j = digitEnabled d j :=
  getLsbD_setPoint_of_ne d (by omega)

theorem hexDigit_setPoint (d : Descriptor) (i j : Fin 4) : hexDigit (setPoint d i) j = hexDigit d j :=
  hexDigit_congr fun _ _ => getLsbD_setPoint_of_ne d (by omega)

/-- R105: the point adds 0x10 to its own digit's byte. -/
theorem segByte_setPoint_self (c : Config) {d : Descriptor} {i : Fin 4} (h : digitPoint d i = false) :
    segByte c (setPoint d i) i = segByte c d i + 0x10 := by
  rw [segByte_of_point_set c (digitPoint_setPoint_self d i), segByte_of_point_clear c h, digitEnabled_setPoint,
    hexDigit_setPoint]

/-- R105: the point of one digit changes no other digit's byte. -/
theorem segByte_setPoint_of_ne (c : Config) (d : Descriptor) {i j : Fin 4} (h : j ≠ i) :
    segByte c (setPoint d i) j = segByte c d j :=
  segByte_congr c (hexDigit_setPoint d i j) (digitEnabled_setPoint d i j) (digitPoint_setPoint_of_ne d h)

/-- Settles O13: a lane reads three fields, and setting a point changes one of them, of its own digit alone. -/
theorem lanesAreIndependent : Obligations.LanesAreIndependent := by
  refine ⟨fun c d d' i hhex hen hdp => segByte_congr c (hexDigit_congr hhex) hen hdp, ?_⟩
  intro c d i j hdp
  split_ifs with hji
  · subst hji
    exact segByte_setPoint_self c hdp
  · exact segByte_setPoint_of_ne c d hji

/-- Where bit 4 is clear, adding 0x10 carries nowhere: it is an or. -/
theorem add_0x10_eq_or_of_bit_four_clear {b : Byte} (h : b.getLsbD 4 = false) : b + 0x10 = b ||| 0x10 := by
  have hand : b &&& BitVec.twoPow 8 4 = 0#8 := by
    rw [BitVec.and_twoPow, h]
    rfl
  exact BitVec.add_eq_or_of_and_eq_zero b _ hand

/-- Under `SEG_DP_CLEAR` (D4) only the point sets bit 4 of a segment byte. -/
theorem segByte_bit_four_clear {c : Config} (hc : c.segDpClear) {d : Descriptor} {i : Fin 4}
    (h : digitPoint d i = false) : (segByte c d i).getLsbD 4 = false := by
  rw [segByte_of_point_clear c h]
  cases digitEnabled d i with
  | true => exact hc (hexDigit d i)
  | false => simp

/-- Settles O15: bit 4 of the byte without its point is clear, so the addition of O13 is an or. -/
theorem pointIsOrWhereBitFourClear : Obligations.PointIsOrWhereBitFourClear := by
  intro c d i hc hdp
  have hclear : (segByte c d i).getLsbD 4 = false := segByte_bit_four_clear hc hdp
  exact ⟨(segByte_setPoint_self c hdp).trans (add_0x10_eq_or_of_bit_four_clear hclear), hclear⟩

/-! ### The bits the encoder reads -/

theorem getLsbD_eq_of_and_eq {d d' m : Descriptor} (h : d &&& m = d' &&& m) {n : Nat} (hn : m.getLsbD n = true) :
    d.getLsbD n = d'.getLsbD n := by
  simpa [hn] using congrArg (BitVec.getLsbD · n) h

/-- ENCODE reads the four digits' nibbles, enable bits and point bits and nothing else of a descriptor (R104). -/
theorem encodeLed_congr (c : Config) {d d' : Descriptor} (hhex : ∀ i, hexDigit d i = hexDigit d' i)
    (hen : ∀ i, digitEnabled d i = digitEnabled d' i) (hdp : ∀ i, digitPoint d i = digitPoint d' i) :
    encodeLed c d = encodeLed c d' := by
  have hseg (i : Fin 4) : segByte c d i = segByte c d' i := segByte_congr c (hhex i) (hen i) (hdp i)
  simp only [encodeLed, hseg, maskByte_congr c (enableMask_congr hen)]

/-- The mask of O14 holds every bit of the three fields (R64). -/
theorem descriptorMask_bits : ∀ i : Fin 4, (∀ j < 4, (0x0F0FFFFF : Descriptor).getLsbD (4 * i + j) = true) ∧
    (0x0F0FFFFF : Descriptor).getLsbD (16 + i) = true ∧ (0x0F0FFFFF : Descriptor).getLsbD (24 + i) = true := by
  decide

/-- Settles O14: every bit that ENCODE reads is one of the mask's. -/
theorem reservedDescriptorBitsIgnored : Obligations.ReservedDescriptorBitsIgnored := by
  intro c d d' h
  refine encodeLed_congr c (fun i => ?_) (fun i => ?_) (fun i => ?_) <;>
    obtain ⟨hhex, hen, hdp⟩ := descriptorMask_bits i
  · exact hexDigit_congr fun j hj => getLsbD_eq_of_and_eq h (hhex j hj)
  · exact getLsbD_eq_of_and_eq h hen
  · exact getLsbD_eq_of_and_eq h hdp

/-! ### Repeating a `setLed` -/

/-- R107, R182: a SET_LED leaves its command in the cache and as the bytes of TXLOG's last entry. -/
theorem exec_reqSetLed_ledc_lastBytes {desc : Descriptor} {s t : State} (h : exec (.reqSetLed desc) s = .next t) :
    t.ledc = encodeLed s.cfg desc ∧
    t.txLog.getLast?.map Submission.bytes = some (encodeLed s.cfg desc).toList := by
  obtain rfl := Host.Outcome.next.inj h
  exact ⟨rfl, by simp [sendLedSet]⟩

/-- Every row but SET_LED leaves the cache as it is (R24). -/
theorem exec_ledc_of_ne_reqSetLed {i : Instr} {s t : State} (hne : ∀ d, i ≠ .reqSetLed d) (h : exec i s = .next t) :
    t.ledc = s.ledc := by
  cases hp : i.isPacket with
  | true =>
    obtain ⟨op, d1, d2, hr, -⟩ := exec_packet_row hp s
    obtain ⟨-, hledc, -⟩ := route_fields op d1 d2 s
    obtain rfl := Host.Outcome.next.inj (hr.symm.trans h)
    exact hledc
  | false =>
    cases i with
    | rxReset | rxAck | rxBiocEvent | rxOther => simp [Instr.isPacket] at hp
    | reqSetLed desc => exact absurd rfl (hne desc)
    | _ => cases h; rfl

/-- Operations without a SET_LED among them keep the cache and the configuration. -/
theorem execAll_keeps_cfg_ledc {between : List Instr} {t u : State} (hne : ∀ i ∈ between, ∀ d, i ≠ .reqSetLed d)
    (h : execAll between t = .next u) : u.cfg = t.cfg ∧ u.ledc = t.ledc := by
  induction between generalizing t with
  | nil => cases h; exact ⟨rfl, rfl⟩
  | cons i rest ih =>
    obtain ⟨m, hm, hrest⟩ := execAll_cons_next h
    obtain ⟨hi, hne⟩ := List.forall_mem_cons.mp hne
    obtain ⟨hcfg, hledc⟩ := ih hne hrest
    exact ⟨hcfg.trans (exec_cfg hm), hledc.trans (exec_ledc_of_ne_reqSetLed hi hm)⟩

/-- Settles O38: both SET_LEDs encode under one configuration, and nothing between them writes the cache. -/
theorem setLedIsIdempotent : Obligations.SetLedIsIdempotent := by
  intro desc between s t u v hne ht hu hv
  obtain ⟨htLedc, htLast⟩ := exec_reqSetLed_ledc_lastBytes ht
  obtain ⟨hvLedc, hvLast⟩ := exec_reqSetLed_ledc_lastBytes hv
  obtain ⟨hcfg, hledc⟩ := execAll_keeps_cfg_ledc hne hu
  have hcmd : encodeLed u.cfg desc = t.ledc := by rw [hcfg, exec_cfg ht, htLedc]
  exact ⟨hledc, hvLedc.trans hcmd, htLedc ▸ htLast, hcmd ▸ hvLast⟩

end Sys2Proof.Machine
end

section
/-! PROOFS. The ButtonDecoder (42_button_decoder.md): the wiring correction (R121), DECODE and its store (R120, R122), and the
flag mapping with the bijection (R123). -/

namespace Sys2Proof.Machine

/-! ### The wiring correction -/

theorem swap12_of_ne {dn : Nibble} (h : dn.getLsbD 1 ≠ dn.getLsbD 2) : swap12 dn = dn ^^^ 0b0110 :=
  if_pos (bne_iff_ne.mpr h)

theorem swap12_of_eq {dn : Nibble} (h : dn.getLsbD 1 = dn.getLsbD 2) : swap12 dn = dn :=
  if_neg fun hne => bne_iff_ne.mp hne h

theorem nibble_eq_of_bits {x y : Nibble} (h0 : x.getLsbD 0 = y.getLsbD 0) (h1 : x.getLsbD 1 = y.getLsbD 1)
    (h2 : x.getLsbD 2 = y.getLsbD 2) (h3 : x.getLsbD 3 = y.getLsbD 3) : x = y := by
  refine BitVec.eq_of_getLsbD_eq fun i hi => ?_
  interval_cases i <;> assumption

/-- The unconditional exchange moves the four bits as SWAP12 does (R121, corner case). -/
theorem swap12_eq_exchange (dn : Nibble) :
    swap12 dn = (dn &&& 0b1001) ||| ((dn &&& 0b0010) <<< 1) ||| ((dn &&& 0b0100) >>> 1) := by
  obtain ⟨h0, h1, h2, h3⟩ := swap12_bits dn
  apply nibble_eq_of_bits
  · rw [h0]; simp
  · rw [h1]; simp
  · rw [h2]; simp
  · rw [h3]; simp

/-- Settles O16: the two branches of SWAP12, and the exchange bit by bit. -/
theorem wiringCorrection : Obligations.WiringCorrection :=
  fun dn => ⟨swap12_of_ne, swap12_of_eq, swap12_eq_exchange dn⟩

/-- The crossover corrects itself when applied twice (R121). -/
theorem swap12_swap12 (dn : Nibble) : swap12 (swap12 dn) = dn := by
  obtain ⟨h0, h1, h2, h3⟩ := swap12_bits dn
  obtain ⟨k0, k1, k2, k3⟩ := swap12_bits (swap12 dn)
  exact nibble_eq_of_bits (k0.trans h0) (k1.trans h2) (k2.trans h1) (k3.trans h3)

/-! ### The decoded word -/

/-- Settles O17: DECODE is one write of `BTN`, and its three corner values are computed. -/
theorem decodeStoresButtonWord : Obligations.DecodeStoresButtonWord :=
  ⟨fun _ _ _ => rfl, by decide, by decide, by decide⟩

/-- The two nibbles of a button word occupy disjoint bits, so their or is a concatenation (R122, corner case). -/
theorem buttonWord_eq_append (buttons dirs : Nibble) : buttonWord buttons dirs = swap12 (~~~dirs) ++ ~~~buttons :=
  calc buttonWord buttons dirs
      = (swap12 (~~~dirs)).setWidth 8 <<< 4 ||| (~~~buttons).setWidth 8 := BitVec.or_comm _ _
    _ = (swap12 (~~~dirs) ++ ~~~buttons).setWidth 8 := BitVec.setWidth_append_eq_shiftLeft_setWidth_or.symm
    _ = swap12 (~~~dirs) ++ ~~~buttons := BitVec.setWidth_eq _

/-- The low nibble of a button word holds the inverted buttons (R122). -/
theorem buttonWord_getLsbD_low (buttons dirs : Nibble) {i : Nat} (h : i < 4) :
    (buttonWord buttons dirs).getLsbD i = !buttons.getLsbD i := by
  have happend := BitVec.getLsbD_append (x := swap12 (~~~dirs)) (y := ~~~buttons) (i := i)
  rw [buttonWord_eq_append, happend, if_pos h, BitVec.getLsbD_not, decide_eq_true h, Bool.true_and]

/-- The high nibble of a button word holds the corrected directions (R122). -/
theorem buttonWord_getLsbD_high (buttons dirs : Nibble) (i : Nat) :
    (buttonWord buttons dirs).getLsbD (4 + i) = (swap12 (~~~dirs)).getLsbD i := by
  have happend := BitVec.getLsbD_append (x := swap12 (~~~dirs)) (y := ~~~buttons) (i := 4 + i)
  rw [buttonWord_eq_append, happend, if_neg (by omega), Nat.add_sub_cancel_left]

/-- The high nibble by the raw directions (R123): each bit complemented, bits 1 and 2 crossed. -/
theorem buttonWord_direction_bits (buttons dirs : Nibble) :
    (buttonWord buttons dirs).getLsbD 4 = (!dirs.getLsbD 0) ∧ (buttonWord buttons dirs).getLsbD 5 = (!dirs.getLsbD 2) ∧
    (buttonWord buttons dirs).getLsbD 6 = (!dirs.getLsbD 1) ∧ (buttonWord buttons dirs).getLsbD 7 = !dirs.getLsbD 3 := by
  have hhigh := buttonWord_getLsbD_high buttons dirs
  obtain ⟨h0, h1, h2, h3⟩ := swap12_bits (~~~dirs)
  refine ⟨(hhigh 0).trans (h0.trans ?_), (hhigh 1).trans (h1.trans ?_), (hhigh 2).trans (h2.trans ?_),
    (hhigh 3).trans (h3.trans ?_)⟩ <;> simp

theorem buttonsNibble_getLsbD (d : Byte) {i : Nat} (h : i < 4) : (buttonsNibble d).getLsbD i = d.getLsbD i := by
  simp [buttonsNibble, h]

theorem dirsNibble_getLsbD (d : Byte) {i : Nat} (h : i < 4) : (dirsNibble d).getLsbD i = d.getLsbD i := by
  simp [dirsNibble, h]

/-- R123's table: a flag of the decoded word is the complement of its raw bit. -/
theorem pressed_buttonWord (d1 d2 : Byte) (f : ButtonFlag) :
    pressed (buttonWord (buttonsNibble d1) (dirsNibble d2)) f = !rawFlagBit d1 d2 f := by
  have hbutton {i : Nat} (h : i < 4) :
      (buttonWord (buttonsNibble d1) (dirsNibble d2)).getLsbD i = !d1.getLsbD i := by
    rw [buttonWord_getLsbD_low _ _ h, buttonsNibble_getLsbD d1 h]
  have hdir {i : Nat} (h : i < 4) : (!(dirsNibble d2).getLsbD i) = !d2.getLsbD i :=
    congrArg not (dirsNibble_getLsbD d2 h)
  obtain ⟨hup, hdown, hleft, hright⟩ := buttonWord_direction_bits (buttonsNibble d1) (dirsNibble d2)
  cases f with
  | start | a | b | c => exact hbutton (by decide)
  | up => exact hup.trans (hdir (by decide))
  | down => exact hdown.trans (hdir (by decide))
  | left => exact hleft.trans (hdir (by decide))
  | right => exact hright.trans (hdir (by decide))

/-! ### DECODE is invertible -/

/-- The buttons and directions nibbles that DECODE turns into a given button word. -/
def rawNibbles (btn : Byte) : Nibble × Nibble := (~~~btn.extractLsb' 0 4, ~~~swap12 (btn.extractLsb' 4 4))

theorem rawNibbles_buttonWord (buttons dirs : Nibble) : rawNibbles (buttonWord buttons dirs) = (buttons, dirs) := by
  rw [rawNibbles, buttonWord_eq_append, BitVec.extractLsb'_append_eq_right, BitVec.extractLsb'_append_eq_left,
    swap12_swap12, BitVec.not_not, BitVec.not_not]

theorem buttonWord_rawNibbles (btn : Byte) : buttonWord (rawNibbles btn).1 (rawNibbles btn).2 = btn := by
  rw [rawNibbles, buttonWord_eq_append, BitVec.not_not, BitVec.not_not, swap12_swap12]
  exact (BitVec.extractLsb'_append_extractLsb'_eq_extractLsb' rfl).trans BitVec.extractLsb'_eq_self

/-- Settles O18: the flags by R123's table, and DECODE is undone by `rawNibbles` from both sides. -/
theorem flagsFromRawBits : Obligations.FlagsFromRawBits :=
  ⟨pressed_buttonWord, Function.bijective_iff_has_inverse.mpr
    ⟨rawNibbles, fun p => rawNibbles_buttonWord p.1 p.2, buttonWord_rawNibbles⟩⟩

end Sys2Proof.Machine
end

section
/-! PROOFS. The ResetHandshake (43_reset_handshake.md): each packet of the handshake by the state it meets (R141 to R147), the
whole exchange (R150), a `setLed` in its middle (R149), and what the environment's answer cannot change (R146). -/

namespace Sys2Proof.Machine

/-! ### One packet -/

theorem exec_rxReset_of_idle {s : State} (hwf : s.cfg.wf = true) (h : s.rst = .idle) (d1 d2 : Byte) :
    exec (.rxReset d1 d2) s = .next (sendEnableEvents (s.writeRst .awaitingUserModeAck)) := by
  rw [exec_rxReset hwf, hsStep_reset_of_idle h]

theorem exec_rxAck_of_awaitingUserModeAck {s : State} (hwf : s.cfg.wf = true) (h : s.rst = .awaitingUserModeAck)
    (d1 d2 : Byte) : exec (.rxAck d1 d2) s = .next (sendLedUserMode (s.writeRst .awaitingLedRestoreAck)) := by
  rw [exec_rxAck hwf, hsStep_ack_of_awaitingUserModeAck h]

theorem exec_rxAck_of_awaitingLedRestoreAck {s : State} (hwf : s.cfg.wf = true) (h : s.rst = .awaitingLedRestoreAck)
    (d1 d2 : Byte) : exec (.rxAck d1 d2) s = .next (sendLedRestore (s.writeRst .idle)) := by
  rw [exec_rxAck hwf, hsStep_ack_of_awaitingLedRestoreAck h]

/-- Settles O19: the transition out of Idle is a write of `RST` and one submission. -/
theorem resetFromIdle : Obligations.ResetFromIdle :=
  fun _ d1 d2 hwf h => exec_rxReset_of_idle hwf h d1 d2

/-- Settles O20: the first ACK's transition is a write of `RST` and one submission. -/
theorem firstAck : Obligations.FirstAck :=
  fun _ d1 d2 hwf h => exec_rxAck_of_awaitingUserModeAck hwf h d1 d2

/-- Settles O21: the second ACK's transition is a write of `RST` and the submission of the cache. -/
theorem secondAckRestoresCache : Obligations.SecondAckRestoresCache :=
  fun _ d1 d2 hwf h => exec_rxAck_of_awaitingLedRestoreAck hwf h d1 d2

/-- R144: an ACK in Idle is held. -/
theorem hsStep_ack_of_idle {s : State} (hra : s.cfg.opReset ≠ s.cfg.opAck) (h : s.rst = .idle) :
    hsStep s.cfg.opAck s = s := by
  simp [hsStep, h, hra.symm]

/-- R144, R147: a RESET in a waiting state is held with the switch off. -/
theorem hsStep_reset_of_waiting_of_switch_off {s : State} (hra : s.cfg.opReset ≠ s.cfg.opAck) (h : s.rst ≠ .idle)
    (hoff : s.cfg.resetFromAnyState = false) : hsStep s.cfg.opReset s = s := by
  simp [hsStep, h, hra, hoff]

/-- R147: a RESET in a waiting state restarts the handshake with the switch on. -/
theorem hsStep_reset_of_waiting_of_switch_on {s : State} (hra : s.cfg.opReset ≠ s.cfg.opAck) (h : s.rst ≠ .idle)
    (hon : s.cfg.resetFromAnyState = true) :
    hsStep s.cfg.opReset s = sendEnableEvents (s.writeRst .awaitingUserModeAck) := by
  simp [hsStep, h, hra, hon]

/-- Settles O22: the two held packets and the restart, one HS_STEP each. -/
theorem unexpectedPacketsHeld : Obligations.UnexpectedPacketsHeld := by
  intro s d1 d2 hwf
  obtain ⟨hra, -, -⟩ := Config.opcodes_of_wf hwf
  rw [exec_rxAck hwf, exec_rxReset hwf]
  refine ⟨fun h => ?_, fun h hoff => ?_, fun h hon => ?_⟩
  · rw [hsStep_ack_of_idle hra h]
  · rw [hsStep_reset_of_waiting_of_switch_off hra h hoff]
  · rw [hsStep_reset_of_waiting_of_switch_on hra h hon]
    rfl

/-- R145: an opcode that is not ACK starts the handshake or is held. -/
theorem hsStep_cases_of_ne_ack {op : Byte} {s : State} (hne : op ≠ s.cfg.opAck) :
    hsStep op s = sendEnableEvents (s.writeRst .awaitingUserModeAck) ∨ hsStep op s = s := by
  obtain ⟨-, -, h⟩ | ⟨-, hack, -⟩ | ⟨-, hack, -⟩ | ⟨-, -, -, h⟩ | h := hsStep_cases op s
  · exact .inl h
  · exact absurd hack hne
  · exact absurd hack hne
  · exact .inl h
  · exact .inr h

theorem hsStep_rst_of_ne_ack {op : Byte} {s : State} (hne : op ≠ s.cfg.opAck) :
    (hsStep op s).rst = .awaitingUserModeAck ∨ (hsStep op s).rst = s.rst :=
  (hsStep_cases_of_ne_ack hne).imp (congrArg State.rst) (congrArg State.rst)

/-- Settles O23: without an ACK, `RST` ends in AwaitingUserModeAck or where it was. -/
theorem onlyAckAcknowledges : Obligations.OnlyAckAcknowledges := by
  intro op s
  refine ⟨hsStep_of_ne, fun hne => ?_, fun hne hwaiting => ?_⟩
  · exact (hsStep_rst_of_ne_ack hne).imp_left fun h => by simp [h]
  · obtain h | h := hsStep_rst_of_ne_ack hne
    · simp [h]
    · rwa [h]

/-! ### The whole exchange -/

theorem execAll_cons_of_next {i : Instr} {rest : List Instr} {s t : State} (h : exec i s = .next t) :
    execAll (i :: rest) s = execAll rest t := by
  simp [execAll, h]

/-- The state after the second ACK of a handshake whose first ACK comes in `s` (R142, R143). -/
theorem execAll_two_acks {s : State} (hwf : s.cfg.wf = true) (h : s.rst = .awaitingUserModeAck) (b1 b2 c1 c2 : Byte) :
    execAll [.rxAck b1 b2, .rxAck c1 c2] s =
      .next (sendLedRestore ((sendLedUserMode (s.writeRst .awaitingLedRestoreAck)).writeRst .idle)) :=
  execAll_pair (exec_rxAck_of_awaitingUserModeAck hwf h b1 b2)
    (exec_rxAck_of_awaitingLedRestoreAck (s := sendLedUserMode (s.writeRst .awaitingLedRestoreAck)) hwf rfl c1 c2)

/-- Settles O28: RESET, then the two ACKs; `RST` is Idle again and the three submissions join TXLOG one by one. -/
theorem fullHandshake : Obligations.FullHandshake := by
  intro s a1 a2 b1 b2 c1 c2 hwf hidle
  have hacks := execAll_two_acks (s := sendEnableEvents (s.writeRst .awaitingUserModeAck)) hwf rfl b1 b2 c1 c2
  rw [execAll_cons_of_next (exec_rxReset_of_idle hwf hidle a1 a2), hacks]
  simp [sendEnableEvents, sendLedUserMode, sendLedRestore, State.transmit, State.writeRst, EnvAnswer.submission, hidle]

/-! ### A `setLed` in the middle -/

/-- The ACKs that a handshake waiting in `r` still needs, all with the same data bytes. -/
abbrev remainingAcks (r : ResetState) (d1 d2 : Byte) : List Instr :=
  if r = .awaitingUserModeAck then [.rxAck d1 d2, .rxAck d1 d2] else [.rxAck d1 d2]

/-- R143, R149: the remaining ACKs return to Idle and restore the cache as it is in `s`. -/
theorem execAll_remainingAcks {s : State} (hwf : s.cfg.wf = true) (hwaiting : s.rst ≠ .idle) (d1 d2 : Byte) :
    ∃ u, execAll (remainingAcks s.rst d1 d2) s = .next u ∧ u.rst = .idle ∧ u.ledc = s.ledc ∧
      u.txLog.getLast? = some (s.env.submission .ledRestore s.ledc.toList) := by
  cases h : s.rst with
  | idle => exact absurd h hwaiting
  | awaitingUserModeAck =>
    exact ⟨_, execAll_two_acks hwf h d1 d2 d1 d2, rfl, rfl, List.getLast?_concat⟩
  | awaitingLedRestoreAck =>
    exact ⟨_, execAll_cons_of_next (exec_rxAck_of_awaitingLedRestoreAck hwf h d1 d2), rfl, rfl, List.getLast?_concat⟩

/-- R182: SET_LED writes its command to the cache and does not touch `RST`. -/
theorem exec_reqSetLed_fields (desc : Descriptor) (s : State) :
    ∃ t, exec (.reqSetLed desc) s = .next t ∧ t.cfg = s.cfg ∧ t.rst = s.rst ∧ t.ledc = encodeLed s.cfg desc :=
  ⟨_, rfl, rfl, rfl, rfl⟩

/-- Settles O29: SET_LED writes the cache and leaves `RST`, and the remaining ACKs restore that cache. -/
theorem setLedMidHandshakeIsRestored : Obligations.SetLedMidHandshakeIsRestored := by
  intro s d1 d2 desc a hwf hwaiting
  obtain ⟨t, ht, hcfg, hrst, hledc⟩ := exec_reqSetLed_fields desc s
  rw [← hcfg] at hwf
  rw [← hrst] at hwaiting
  obtain ⟨u, hu, hidle, hkept, hlast⟩ := execAll_remainingAcks (s := { t with env := a }) hwf hwaiting d1 d2
  refine ⟨t, u, ht, ?_⟩
  rw [← hrst, ← hledc]
  exact ⟨hu, hidle, hkept, hlast⟩

/-! ### The environment's answer -/

/-- R146: the transition and the submitted bytes do not depend on the environment's answer. -/
theorem hsStep_with_env (op : Byte) (s : State) (a : EnvAnswer) :
    (hsStep op { s with env := a }).rst = (hsStep op s).rst ∧
    (hsStep op { s with env := a }).txLog.map Submission.bytes = (hsStep op s).txLog.map Submission.bytes := by
  unfold hsStep
  split_ifs <;> simp [sendEnableEvents, sendLedUserMode, sendLedRestore]

/-- `BTN` after ROUTE does not depend on the environment's answer (R160). -/
theorem route_btn_with_env (op d1 d2 : Byte) (s : State) (a : EnvAnswer) :
    (route op d1 d2 { s with env := a }).btn = (route op d1 d2 s).btn := by
  by_cases hBioc : op = s.cfg.opBiocEvent
  · exact (route_btn_of_eq (s := { s with env := a }) hBioc d1 d2).trans (route_btn_of_eq hBioc d1 d2).symm
  · exact (route_btn_of_ne (s := { s with env := a }) hBioc d1 d2).trans (route_btn_of_ne hBioc d1 d2).symm

/-- An RX row is ROUTE of one packet, the same from every state of a configuration (R160). -/
theorem exec_packet_eq_route {i : Instr} (hpacket : i.isPacket = true) (c : Config) :
    ∃ op d1 d2, ∀ s : State, s.cfg = c → exec i s = .next (route op d1 d2 s) := by
  cases i with
  | rxReset d1 d2 => exact ⟨c.opReset, d1, d2, by rintro s rfl; rfl⟩
  | rxAck d1 d2 => exact ⟨c.opAck, d1, d2, by rintro s rfl; rfl⟩
  | rxBiocEvent d1 d2 => exact ⟨c.opBiocEvent, d1, d2, by rintro s rfl; rfl⟩
  | rxOther op d1 d2 => exact ⟨op, d1, d2, fun _ _ => rfl⟩
  | _ => simp [Instr.isPacket] at hpacket

/-- Settles O27: the row is ROUTE of one packet under either answer, and no element that ROUTE writes depends on the answer. -/
theorem handshakeIgnoresOutcome : Obligations.HandshakeIgnoresOutcome := by
  intro i s a hpacket
  obtain ⟨op, d1, d2, hexec⟩ := exec_packet_eq_route hpacket s.cfg
  obtain ⟨-, hledc, -, -, -, -, -, -, hrst, hlog⟩ := route_fields op d1 d2 s
  obtain ⟨-, hledc', hresults', -, -, -, -, -, hrst', hlog'⟩ := route_fields op d1 d2 { s with env := a }
  obtain ⟨hsRst, hsBytes⟩ := hsStep_with_env op s a
  refine ⟨_, _, hexec s rfl, hexec { s with env := a } rfl, ?_, route_btn_with_env op d1 d2 s a, ?_, hresults', ?_⟩
  · rw [hrst', hrst, hsRst]
  · rw [hledc', hledc]
  · rw [hlog', hlog, hsBytes]

end Sys2Proof.Machine
end

section
/-! PROOFS. The PacketRouter (44_packet_router.md): the two classes of packet that only `BTN` or nothing answers (R162, R163),
every class element by element (R165), and what no packet changes (R160, R56). -/

namespace Sys2Proof.Machine

/-! ### The classes outside the handshake -/

/-- Settles O24: the handshake holds on a BIOC_EVENT, so the row is one write of `BTN`. -/
theorem biocEventStoresButtons : Obligations.BiocEventStoresButtons :=
  fun _ d1 d2 hwf => exec_rxBiocEvent hwf d1 d2

/-- R163: ROUTE of an opcode that is none of the three is the state it meets. -/
theorem route_of_other {op : Byte} {s : State} (hreset : op ≠ s.cfg.opReset) (hack : op ≠ s.cfg.opAck)
    (hbioc : op ≠ s.cfg.opBiocEvent) (d1 d2 : Byte) : route op d1 d2 s = s :=
  (route_of_ne hbioc d1 d2).trans (hsStep_of_ne hreset hack)

/-- Settles O25: RX.OTHER is ROUTE of its opcode, which neither the handshake nor the decoder answers. -/
theorem otherOpcodeIgnored : Obligations.OtherOpcodeIgnored :=
  fun _ _ d1 d2 hreset hack hbioc => congrArg Host.Outcome.next (route_of_other hreset hack hbioc d1 d2)

/-! ### Every class, element by element -/

/-- R140 with the switch off: the three transitions of R141 to R143, and every other pair holds (R144, R147). -/
theorem hsStep_of_switch_off {s : State} (hoff : s.cfg.resetFromAnyState = false) (op : Byte) :
    hsStep op s =
      if op = s.cfg.opReset ∧ s.rst = .idle then sendEnableEvents (s.writeRst .awaitingUserModeAck)
      else if op = s.cfg.opAck ∧ s.rst = .awaitingUserModeAck then sendLedUserMode (s.writeRst .awaitingLedRestoreAck)
      else if op = s.cfg.opAck ∧ s.rst = .awaitingLedRestoreAck then sendLedRestore (s.writeRst .idle)
      else s := by
  simp [hsStep, hoff, and_comm]

/-- `BTN` after ROUTE of any packet (R160). -/
theorem route_btn (op d1 d2 : Byte) (s : State) :
    (route op d1 d2 s).btn =
      if op = s.cfg.opBiocEvent then buttonWord (buttonsNibble d1) (dirsNibble d2) else s.btn := by
  split_ifs with hbioc
  · exact route_btn_of_eq hbioc d1 d2
  · exact route_btn_of_ne hbioc d1 d2

/-- Settles O26: `RST` and TXLOG are HS_STEP's alone, by its three transitions and the hold; `BTN` is the decoder's alone. -/
theorem routeByClass : Obligations.RouteByClass := by
  intro s op d1 d2 _ hoff
  obtain ⟨-, hledc, hresults, -, -, -, -, -, hrst, hlog⟩ := route_fields op d1 d2 s
  refine ⟨hledc, hresults, route_btn op d1 d2 s, ?_⟩
  rw [hrst, hlog, hsStep_of_switch_off hoff]
  split_ifs with hreset hfirstAck hsecondAck
  · exact ⟨rfl, List.map_append⟩
  · exact ⟨rfl, List.map_append⟩
  · exact ⟨rfl, List.map_append⟩
  · exact ⟨rfl, (List.append_nil _).symm⟩

/-! ### What no packet changes -/

/-- R56: HS_STEP submits at most once. -/
theorem hsStep_txLog_cases (op : Byte) (s : State) :
    (hsStep op s).txLog = s.txLog ∨ ∃ sub, (hsStep op s).txLog = s.txLog ++ [sub] := by
  obtain ⟨-, -, h⟩ | ⟨-, -, h⟩ | ⟨-, -, h⟩ | ⟨-, -, -, h⟩ | h := hsStep_cases op s
  · exact .inr ⟨_, congrArg State.txLog h⟩
  · exact .inr ⟨_, congrArg State.txLog h⟩
  · exact .inr ⟨_, congrArg State.txLog h⟩
  · exact .inr ⟨_, congrArg State.txLog h⟩
  · exact .inl (congrArg State.txLog h)

theorem exec_rxBiocEvent_rst_txLog {s t : State} (hwf : s.cfg.wf = true) {d1 d2 : Byte}
    (h : exec (.rxBiocEvent d1 d2) s = .next t) : t.rst = s.rst ∧ t.txLog = s.txLog := by
  obtain rfl := Host.Outcome.next.inj ((exec_rxBiocEvent hwf d1 d2).symm.trans h)
  exact ⟨rfl, rfl⟩

/-- Settles O43: an RX row is ROUTE of one packet, ROUTE's log is HS_STEP's, and `BTN` is BIOC_EVENT's alone. -/
theorem packetFrame : Obligations.PacketFrame := by
  intro i s t hpacket h
  obtain ⟨op, d1, d2, hroute, -⟩ := exec_packet_row hpacket s
  obtain ⟨hcfg, hledc, hresults, hrx, hreq, hsched, hturn, henv, -, hlog⟩ := route_fields op d1 d2 s
  have hbtn := fun hwf hi hne => exec_btn_of_not_biocEvent (i := i) hwf hi hne h
  have hbioc : s.cfg.wf = true → (∃ e1 e2, i = .rxBiocEvent e1 e2) → t.rst = s.rst ∧ t.txLog = s.txLog := by
    rintro hwf ⟨e1, e2, rfl⟩
    exact exec_rxBiocEvent_rst_txLog hwf h
  obtain rfl := Host.Outcome.next.inj (hroute.symm.trans h)
  exact ⟨hcfg, hledc, hresults, hrx, hreq, hsched, hturn, henv, hlog ▸ hsStep_txLog_cases op s, hbtn, hbioc⟩

end Sys2Proof.Machine
end

section
/-! PROOFS. The request surface (45_requests.md): what each REQ row answers (R180 to R186), what no request changes (R56), and that
none reads or writes `RST` (R187). -/

namespace Sys2Proof.Machine

/-! ### The rows -/

/-- R180: one submission, then the result of its outcome. -/
theorem exec_reqInitialize (arg : Descriptor) (s : State) :
    exec (.reqInitialize arg) s =
      .next ((s.transmit .init [s.cfg.cmdBiocOn, s.cfg.cmdLedUsr]).finish s.env.tx.result) := rfl

/-- R182: the cache write, then one submission, then the result of its outcome. -/
theorem exec_reqSetLed (desc : Descriptor) (s : State) :
    exec (.reqSetLed desc) s =
      .next (((s.writeLedc (encodeLed s.cfg desc)).transmit .ledSet (encodeLed s.cfg desc).toList).finish
        s.env.tx.result) := rfl

theorem exec_reqLedAck (arg : Descriptor) (s : State) : exec (.reqLedAck arg) s = .next (s.finish .ok) := rfl

theorem exec_reqLedRequest (arg : Descriptor) (s : State) : exec (.reqLedRequest arg) s = .next (s.finish .ok) := rfl

theorem exec_reqReadLed (arg : Descriptor) (s : State) : exec (.reqReadLed arg) s = .next (s.finish .ok) := rfl

theorem exec_reqUnsupported (code : Nat) (arg : Descriptor) (s : State) :
    exec (.reqUnsupported code arg) s = .next (s.finish (.fail .unsupportedRequest)) := rfl

/-- R201: OK exactly when the submission is accepted. -/
theorem TxOutcome.result_eq_ite (o : TxOutcome) :
    o.result = if o = .accepted then .ok else .fail .transmitFailure := by
  cases o with
  | accepted => exact TxOutcome.result_accepted
  | rejected => exact TxOutcome.result_rejected

/-- Settles O30: the row is one `Transmit` and the end of the request, and the result is R201's. -/
theorem initializeSubmitsInit : Obligations.InitializeSubmitsInit := by
  intro s arg
  rw [exec_reqInitialize, TxOutcome.result_eq_ite]
  rfl

/-- Settles O31: the row is the end of the request with what the copy leads to. -/
theorem getButtonsReturnsWord : Obligations.GetButtonsReturnsWord :=
  fun s arg => exec_reqGetButtons arg s

/-- Settles O32: the row is the cache write, one `Transmit` and the end of the request, and the result is R201's. -/
theorem setLedWritesCacheThenSubmits : Obligations.SetLedWritesCacheThenSubmits := by
  intro s desc
  rw [exec_reqSetLed, TxOutcome.result_eq_ite]
  rfl

/-- Settles O33: either row is the end of the request alone. -/
theorem noOpRequestsAnswerOk : Obligations.NoOpRequestsAnswerOk :=
  fun s arg => ⟨exec_reqLedAck arg s, exec_reqLedRequest arg s⟩

/-- Settles O34: the row is the end of the request alone. -/
theorem readLedAnswersOk : Obligations.ReadLedAnswersOk :=
  fun s arg => exec_reqReadLed arg s

/-- Settles O35: a code of no kind is outside the image of `P_REQ_CODE`, and its row is the end of the request alone. -/
theorem unsupportedRequestFails : Obligations.UnsupportedRequestFails :=
  fun s code arg hcode =>
    ⟨decode_request_of_isUnsupportedCode ((s.cfg.isUnsupportedCode_iff_forall code).mpr hcode) arg,
      exec_reqUnsupported code arg s⟩

/-! ### Every request -/

/-- Every REQ row but INITIALIZE and SET_LED only gives a result, which depends on nothing but the environment's answers and
`BTN` (R181, R183 to R186). -/
theorem exec_request_only_answers {i : Instr} (hi : i.isRequest = true) :
    (∃ arg, i = .reqInitialize arg) ∨ (∃ desc, i = .reqSetLed desc) ∨
    ∃ res : EnvAnswer → Byte → ReqResult, ∀ s : State, exec i s = .next (s.finish (res s.env s.btn)) := by
  cases i with
  | reqInitialize arg => exact .inl ⟨arg, rfl⟩
  | reqSetLed desc => exact .inr (.inl ⟨desc, rfl⟩)
  | reqGetButtons arg => exact .inr (.inr ⟨EnvAnswer.copyResult, exec_reqGetButtons arg⟩)
  | reqLedAck arg => exact .inr (.inr ⟨fun _ _ => .ok, exec_reqLedAck arg⟩)
  | reqLedRequest arg => exact .inr (.inr ⟨fun _ _ => .ok, exec_reqLedRequest arg⟩)
  | reqReadLed arg => exact .inr (.inr ⟨fun _ _ => .ok, exec_reqReadLed arg⟩)
  | reqUnsupported code arg =>
    exact .inr (.inr ⟨fun _ _ => .fail .unsupportedRequest, exec_reqUnsupported code arg⟩)
  | _ => simp [Instr.isRequest] at hi

/-- Settles O40: neither a submission, nor the cache write, nor the end of a request reads or writes `RST`, and no result
depends on it. -/
theorem requestsCannotSeeResetState : Obligations.RequestsCannotSeeResetState := by
  intro i s t r hi h
  obtain ⟨arg, rfl⟩ | ⟨desc, rfl⟩ | ⟨res, hres⟩ := exec_request_only_answers hi
  · obtain rfl := Host.Outcome.next.inj ((exec_reqInitialize arg s).symm.trans h)
    exact ⟨rfl, exec_reqInitialize arg (s.writeRst r)⟩
  · obtain rfl := Host.Outcome.next.inj ((exec_reqSetLed desc s).symm.trans h)
    exact ⟨rfl, exec_reqSetLed desc (s.writeRst r)⟩
  · obtain rfl := Host.Outcome.next.inj ((hres s).symm.trans h)
    exact ⟨rfl, hres (s.writeRst r)⟩

/-- Settles O44: only INITIALIZE and SET_LED do more than end the request, and each says what it writes beside the result. -/
theorem requestFrame : Obligations.RequestFrame := by
  intro i s t hi h
  obtain ⟨arg, rfl⟩ | ⟨desc, rfl⟩ | ⟨res, hres⟩ := exec_request_only_answers hi
  · obtain rfl := Host.Outcome.next.inj ((exec_reqInitialize arg s).symm.trans h)
    exact ⟨rfl, rfl, rfl, rfl, rfl, rfl, rfl, rfl, ⟨_, rfl⟩, fun _ => rfl, fun _ hne => absurd rfl (hne arg)⟩
  · obtain rfl := Host.Outcome.next.inj ((exec_reqSetLed desc s).symm.trans h)
    exact ⟨rfl, rfl, rfl, rfl, rfl, rfl, rfl, rfl, ⟨_, rfl⟩, fun hne => absurd rfl (hne desc),
      fun hne _ => absurd rfl (hne desc)⟩
  · obtain rfl := Host.Outcome.next.inj ((hres s).symm.trans h)
    exact ⟨rfl, rfl, rfl, rfl, rfl, rfl, rfl, rfl, ⟨_, rfl⟩, fun _ => rfl, fun _ _ => rfl⟩

end Sys2Proof.Machine
end

section
/-! PROOFS. Errors (60_exceptions.md): the one result that each row gives (R200), when that is each of the three failures (R201 to
R203), and that no operation traps (R209). -/

namespace Sys2Proof.Machine

/-! ### The result of a row -/

/-- The result that a row adds, under the environment's answers and the contents of `BTN`: one for a request, none for an RX
or a TX row (R200 to R203). -/
def rowResult (a : EnvAnswer) (btn : Byte) : Instr → Option ReqResult
  | .reqInitialize _ | .reqSetLed _ => some a.tx.result
  | .reqGetButtons _ => some (a.copyResult btn)
  | .reqLedAck _ | .reqLedRequest _ | .reqReadLed _ => some .ok
  | .reqUnsupported _ _ => some (.fail .unsupportedRequest)
  | .rxReset _ _ | .rxAck _ _ | .rxBiocEvent _ _ | .rxOther _ _ _ => none
  | .txEnableEvents | .txLedUserMode | .txLedRestore | .txLedSet _ | .txInit => none

/-- R201, R206: a packet gives no result, whatever the outcome of what it submits. -/
theorem exec_packet_results {i : Instr} {s t : State} (hi : i.isPacket = true) (h : exec i s = .next t) :
    t.results = s.results := by
  obtain ⟨op, d1, d2, hroute, -⟩ := exec_packet_row hi s
  obtain rfl := Host.Outcome.next.inj (hroute.symm.trans h)
  obtain ⟨-, -, hresults, -⟩ := route_fields op d1 d2 s
  exact hresults

/-- The results after any operation. -/
theorem exec_results {i : Instr} {s t : State} (h : exec i s = .next t) :
    t.results = s.results ++ (rowResult s.env s.btn i).toList := by
  cases i with
  | rxReset | rxAck | rxBiocEvent | rxOther => exact (exec_packet_results rfl h).trans (List.append_nil _).symm
  | txEnableEvents | txLedUserMode | txLedRestore | txLedSet | txInit => cases h; exact (List.append_nil _).symm
  | _ => cases h; rfl

theorem exec_results_eq_snoc_iff {i : Instr} {s t : State} (h : exec i s = .next t) (r : ReqResult) :
    t.results = s.results ++ [r] ↔ rowResult s.env s.btn i = some r := by
  rw [exec_results h, List.append_cancel_left_eq, Option.toList_eq_singleton_iff]

/-! ### The three failures -/

/-- R201: a submission fails a request only by TransmitFailure, when it is rejected. -/
theorem TxOutcome.result_eq_fail_iff (o : TxOutcome) (e : ReqError) :
    o.result = .fail e ↔ e = .transmitFailure ∧ o = .rejected := by
  cases o with
  | accepted => simp [TxOutcome.result_accepted]
  | rejected => simp [TxOutcome.result_rejected, eq_comm]

/-- R202: a copy fails a request only by CopyFailure, when its destination cannot be written. -/
theorem EnvAnswer.copyResult_eq_fail_iff (a : EnvAnswer) (v : Byte) (e : ReqError) :
    a.copyResult v = .fail e ↔ e = .copyFailure ∧ a.destWritable = false := by
  unfold EnvAnswer.copyResult
  split_ifs with hwritable
  · simp [hwritable]
  · simp [hwritable, eq_comm]

/-- R205: each row that can fail has one cause. -/
theorem rowResult_eq_fail_iff (a : EnvAnswer) (btn : Byte) (i : Instr) (e : ReqError) :
    rowResult a btn i = some (.fail e) ↔
      (e = .transmitFailure ∧ ((∃ arg, i = .reqInitialize arg) ∨ ∃ desc, i = .reqSetLed desc) ∧ a.tx = .rejected) ∨
      (e = .copyFailure ∧ (∃ arg, i = .reqGetButtons arg) ∧ a.destWritable = false) ∨
      (e = .unsupportedRequest ∧ ∃ code arg, i = .reqUnsupported code arg) := by
  cases i with
  | reqInitialize | reqSetLed => simp [rowResult, TxOutcome.result_eq_fail_iff]
  | reqGetButtons => simp [rowResult, EnvAnswer.copyResult_eq_fail_iff]
  | reqUnsupported => simp [rowResult, eq_comm (b := e)]
  | _ => simp [rowResult]

theorem rowResult_eq_transmitFailure_iff (a : EnvAnswer) (btn : Byte) (i : Instr) :
    rowResult a btn i = some (.fail .transmitFailure) ↔
      ((∃ arg, i = .reqInitialize arg) ∨ ∃ desc, i = .reqSetLed desc) ∧ a.tx = .rejected := by
  simp [rowResult_eq_fail_iff]

theorem rowResult_eq_copyFailure_iff (a : EnvAnswer) (btn : Byte) (i : Instr) :
    rowResult a btn i = some (.fail .copyFailure) ↔ (∃ arg, i = .reqGetButtons arg) ∧ a.destWritable = false := by
  simp [rowResult_eq_fail_iff]

theorem rowResult_eq_unsupportedRequest_iff (a : EnvAnswer) (btn : Byte) (i : Instr) :
    rowResult a btn i = some (.fail .unsupportedRequest) ↔ ∃ code arg, i = .reqUnsupported code arg := by
  simp [rowResult_eq_fail_iff]

/-- R180, R182: one submission. -/
theorem exec_submitting_request_txLog_length {i : Instr} {s t : State}
    (hi : (∃ arg, i = .reqInitialize arg) ∨ ∃ desc, i = .reqSetLed desc) (h : exec i s = .next t) :
    t.txLog.length = s.txLog.length + 1 := by
  obtain ⟨arg, rfl⟩ | ⟨desc, rfl⟩ := hi
  · obtain rfl := Host.Outcome.next.inj ((exec_reqInitialize arg s).symm.trans h)
    exact List.length_append
  · obtain rfl := Host.Outcome.next.inj ((exec_reqSetLed desc s).symm.trans h)
    exact List.length_append

/-- Settles O36: the result an operation adds is its row's, and each failure is the result of the rows that R201 and R202
name. -/
theorem failuresExactlyWhen : Obligations.FailuresExactlyWhen := by
  refine ⟨fun i s t _ h => ⟨?_, ?_, fun hi => exec_submitting_request_txLog_length hi h⟩,
    fun _ _ _ hi h => exec_packet_results hi h⟩
  · exact (exec_results_eq_snoc_iff h _).trans (rowResult_eq_transmitFailure_iff s.env s.btn i)
  · exact (exec_results_eq_snoc_iff h _).trans (rowResult_eq_copyFailure_iff s.env s.btn i)

theorem row_ne_reqUnsupported (k : ReqKind) (arg : Descriptor) (code : Nat) (arg' : Descriptor) :
    k.row arg ≠ .reqUnsupported code arg' := by
  cases k <;> simp [ReqKind.row]

/-- R203: the row selected by exclusion is that of the codes of no kind, whatever the configuration. -/
theorem decodeRequest_is_unsupported_iff (c : Config) (r : RawRequest) :
    (∃ code arg, decodeRequest c r = .reqUnsupported code arg) ↔ ∀ k : ReqKind, r.code ≠ c.reqCode.code k := by
  obtain ⟨k, hcode, hrow⟩ | ⟨hcode, hrow⟩ := decodeRequest_row_or_unsupported c r
  · rw [hrow]
    exact iff_of_false (fun ⟨code, arg, h⟩ => row_ne_reqUnsupported k r.arg code arg h) fun h => h k hcode
  · exact iff_of_true ⟨_, _, hrow⟩ ((c.isUnsupportedCode_iff_forall r.code).mp hcode)

/-- Settles O37: the result is the decoded row's, and O35 gives the whole operation of a code of no kind. -/
theorem unsupportedExactlyWhen : Obligations.UnsupportedExactlyWhen := by
  intro r s t h
  refine ⟨?_, fun hcode => ?_⟩
  · exact (exec_results_eq_snoc_iff h _).trans
      ((rowResult_eq_unsupportedRequest_iff s.env s.btn _).trans (decodeRequest_is_unsupported_iff s.cfg r))
  · obtain ⟨hdecode, hexec⟩ := unsupportedRequestFails s r.code r.arg hcode
    rw [hdecode] at h
    exact Host.Outcome.next.inj (h.symm.trans hexec)

/-! ### No operation traps -/

theorem PendingEvent.run_completes (e : PendingEvent) (s : State) : ∃ t, e.run s = .next t := by
  cases e with
  | packet e => exact exec_completes _ _
  | request e => exact exec_completes _ _

/-- Settles O47: a step waits or runs one pending event, and every row completes. -/
theorem everyOperationCompletes : Obligations.EveryOperationCompletes := by
  refine ⟨exec_completes, fun s hwf => ?_⟩
  obtain ⟨-, -, hs⟩ | ⟨e, rest, -, hs⟩ | ⟨e, rest, -, hs⟩ := step_runs_event hwf
  · exact ⟨s, hs⟩
  · exact hs ▸ PendingEvent.run_completes (.packet e) s
  · exact hs ▸ PendingEvent.run_completes (.request e) s

end Sys2Proof.Machine
end

section
/-! PROOFS. Reset and hazards (70_reset_and_hazards.md): the block waits for its first event (R220), and a handshake without its
ACK stalls (R224, R226). -/

namespace Sys2Proof.Machine

/-! ### Nothing pending -/

/-- Settles O46: of the three things a step can do, two need a pending event. -/
theorem stepWaitsWithoutEvents : Obligations.StepWaitsWithoutEvents := by
  intro s hwf hrx hreq
  obtain ⟨-, -, hs⟩ | ⟨_, _, hcons, -⟩ | ⟨_, _, hcons, -⟩ := step_runs_event hwf
  · exact hs
  · exact nomatch hrx.symm.trans hcons
  · exact nomatch hreq.symm.trans hcons

/-! ### The stalled handshake -/

/-- R144, R226: with the switch off, a waiting state holds on every opcode but ACK, the RESET's included. -/
theorem hsStep_of_waiting_of_ne_ack {s : State} (hoff : s.cfg.resetFromAnyState = false) (hwait : s.rst ≠ .idle) {op : Byte}
    (hne : op ≠ s.cfg.opAck) : hsStep op s = s := by
  rw [hsStep_of_switch_off hoff, if_neg fun h => hwait h.2, if_neg fun h => hne h.1, if_neg fun h => hne h.1]

theorem route_rst_of_waiting_of_ne_ack {s : State} (hoff : s.cfg.resetFromAnyState = false) (hwait : s.rst ≠ .idle)
    {op : Byte} (hne : op ≠ s.cfg.opAck) (d1 d2 : Byte) : (route op d1 d2 s).rst = s.rst := by
  obtain ⟨-, -, -, -, -, -, -, -, hrst, -⟩ := route_fields op d1 d2 s
  rw [hrst, hsStep_of_waiting_of_ne_ack hoff hwait hne]

/-- The handshake waits in the state `r` with the switch off, and no pending packet is an ACK. -/
structure Stalled (r : ResetState) (s : State) : Prop where
  switchOff : s.cfg.resetFromAnyState = false
  rst : s.rst = r
  waiting : r ≠ .idle
  noAck : ∀ e ∈ s.rxPending, e.packet.opcode ≠ s.cfg.opAck

/-- A step keeps the stall where it keeps the configuration and `RST` and no packet joins the queue. -/
theorem Stalled.of_subset {r : ResetState} {s t : State} (h : Stalled r s) (hcfg : t.cfg = s.cfg) (hrst : t.rst = s.rst)
    (hrx : t.rxPending ⊆ s.rxPending) : Stalled r t where
  switchOff := hcfg ▸ h.switchOff
  rst := hrst.trans h.rst
  waiting := h.waiting
  noAck := fun e he => hcfg ▸ h.noAck e (hrx he)

/-- R224: every step keeps the stall, because the packet it may take is no ACK and no request moves `RST`. -/
theorem Stalled.step {r : ResetState} {s t : State} (h : Stalled r s) (hst : step s = .next t) : Stalled r t := by
  obtain ⟨-, ⟨-, -, rfl⟩ | ⟨e, rest, hrx, rfl⟩ | ⟨e, rest, hreq, ht⟩⟩ := step_cases hst
  · exact h
  · have htakes := takesPacket_route hrx
    have hne : e.packet.opcode ≠ s.cfg.opAck := h.noAck e (hrx ▸ List.mem_cons_self)
    have hwait : s.rst ≠ .idle := h.rst ▸ h.waiting
    exact h.of_subset htakes.cfg (route_rst_of_waiting_of_ne_ack (s := s.takePacket e rest) h.switchOff hwait hne _ _)
      (htakes.rxPending ▸ List.subset_cons_self e _)
  · have htakes := takesRequest_exec hreq ht
    exact h.of_subset htakes.cfg htakes.rst (htakes.rxPending ▸ List.Subset.refl _)

/-- Settles O59: the stall is kept by every step, so by every run. -/
theorem handshakeStallsWithoutAck : Obligations.HandshakeStallsWithoutAck := by
  intro n s t hoff hwait hnoAck h
  exact (run_keeps (P := Stalled s.rst) (fun _ _ hu hst => hu.step hst) ⟨hoff, rfl, hwait, hnoAck⟩ h).rst

end Sys2Proof.Machine
end

section
/-! PROOFS. Numbered words (log entries 3, 12): the number of a packet, its first byte in bits 7..0, is decoded as the packet's
three bytes under TC1. -/

namespace Sys2Proof

/-- The number of the packet with the bytes `op`, `d1`, `d2` (log entry 12), written as digits of base 256. -/
def packetNumber (op d1 d2 : Byte) : Nat := op.toNat + 2 ^ 8 * (d1.toNat + 2 ^ 8 * d2.toNat)

/-- Three bytes are recovered from their number, one digit of base 256 each. -/
theorem portWordOfBits_packetNumber (op d1 d2 : Byte) :
    portWordOfBits 24 (packetNumber op d1 d2) = .packet ⟨op, d1, d2⟩ := by
  have hop : BitVec.ofNat 8 (packetNumber op d1 d2) = op := BitVec.eq_of_toNat_eq (by simp [packetNumber]; omega)
  have hd1 : BitVec.ofNat 8 (packetNumber op d1 d2 / 2 ^ 8) = d1 := BitVec.eq_of_toNat_eq (by simp [packetNumber]; omega)
  have hd2 : BitVec.ofNat 8 (packetNumber op d1 d2 / 2 ^ 16) = d2 := BitVec.eq_of_toNat_eq (by simp [packetNumber]; omega)
  rw [portWordOfBits, if_pos le_rfl, hop, hd1, hd2]

theorem decodeTableWord_packetNumber (op d1 d2 : Byte) :
    decodeTableWord 24 (packetNumber op d1 d2) = some (decode .tc1 (.packet ⟨op, d1, d2⟩)) := by
  rw [decodeTableWord, portWordOfBits_packetNumber]

/-- Settles O9: each word is the number of a packet, and its opcode's class under TC1 has its decoding equation from O4. -/
theorem writtenOutPacketsDecode : Obligations.WrittenOutPacketsDecode := by
  refine ⟨?_, ?_, ?_, ?_⟩
  · exact (decodeTableWord_packetNumber 0x46 0x00 0x00).trans (congrArg some (decode_packet_opReset .tc1 _ _))
  · exact (decodeTableWord_packetNumber 0x40 0x00 0x00).trans (congrArg some (decode_packet_opAck Config.tc1_wf _ _))
  · exact (decodeTableWord_packetNumber 0x41 0xFE 0xFF).trans (congrArg some (decode_packet_opBiocEvent Config.tc1_wf _ _))
  · have hother : Config.tc1.isOtherOpcode 0x47 = true := by decide
    exact (decodeTableWord_packetNumber 0x47 0x12 0x34).trans (congrArg some (decode_packet_of_isOtherOpcode hother _ _))

end Sys2Proof
end
